-- ==== Sys2Proof/Word.lean ====
section
/-! DEFINITION. The words the block is made of (00_scope.md R9, 10_state.md): levels, bytes, 16-bit words, frames. -/

namespace Sys2Proof

/-- A logical level: `true` is 1 (high), `false` is 0 (low) (R9). -/
abbrev Level := Bool

/-- A u8: payload bytes, register numbers, pin numbers. -/
abbrev Byte := BitVec 8

/-- A u16: command codes, the expander word and its mirror. -/
abbrev Word16 := BitVec 16

/-- A pixel, an opaque u16 (R89). -/
abbrev Pixel := BitVec 16

/-- The 7-bit bus address of the expander (R6). -/
abbrev BusAddr := BitVec 7

/-- A serial frame, mode bit in bit 8 (R80). -/
abbrev Frame9 := BitVec 9

end Sys2Proof
end

