-- ==== Sys2Proof/Config.lean ====
section
/-! DEFINITION. What an implementation fixes (00_scope.md R6, R7), the record formats the parameters are made of
(30_encoding.md R88, R92, R95, R96), and the free values the environment draws (R8). -/

namespace Sys2Proof

/-- The two logical pins behind the expander (10_state.md R12). -/
inductive Pin
  | cs
  | rst
deriving DecidableEq, Repr, Inhabited

/-- The three raw output lines (10_state.md R16). -/
inductive Line
  | clk
  | sda
  | bl
deriving DecidableEq, Repr, Inhabited

/-- What a WRITE entry is classified as, which changes nothing in its replay (R92, R164). -/
inductive PageOp
  | selectPage
  | setParam
deriving DecidableEq, Repr, Inhabited

/-- One entry of the programming table (R92). -/
inductive RegisterOp
  | write (op : PageOp) (code : Word16) (payload : List Byte)
  | delay (ms : Nat)
deriving DecidableEq, Repr

/-- A rectangle, half-open: `x0 ≤ x < x1`, `y0 ≤ y < y1` (R88). -/
structure Rect where
  x0 : Nat
  y0 : Nat
  x1 : Nat
  y1 : Nat
deriving DecidableEq, Repr

/-- TimingConfig (R95): resolution, three porch and pulse numbers an axis, the polarity levels. -/
structure Timing where
  pclkHz : Nat
  hres : Nat
  vres : Nat
  hpw : Nat
  hbp : Nat
  hfp : Nat
  vpw : Nat
  vbp : Nat
  vfp : Nat
  hsyncActive : Level
  vsyncActive : Level
  deActive : Level
  pclkInverted : Bool
deriving DecidableEq, Repr

/-- `data_pins`: element i is the number of the pin that carries pixel bit i (R96). -/
abbrev DataPins := Vector Byte 16

/-- `control_pins` (R96). -/
structure CtrlPins where
  hsync : Byte
  vsync : Byte
  de : Byte
  pclk : Byte
deriving DecidableEq, Repr

/-- The two buffer variants (R7, R205). -/
inductive StreamMode
  | single
  | double
deriving DecidableEq, Repr

/-- The parameters the spec leaves open (R7). A model takes them as one record: it stands in State, where no
operation writes it (log 1). -/
structure Params where
  expAddr : BusAddr
  csBit : Fin 16
  rstBit : Fin 16
  expOutDefault : Word16
  expDirDefault : Word16
  tCsSettleUs : Nat
  tBitUs : Nat
  tCsReleaseUs : Nat
  tRstHoldMs : Nat
  table : List RegisterOp
  milestones : List Nat
  pclkHz : Nat
  hpw : Nat
  hbp : Nat
  hfp : Nat
  vpw : Nat
  vbp : Nat
  vfp : Nat
  hsyncActive : Level
  vsyncActive : Level
  deActive : Level
  dataPins : DataPins
  ctrlPins : CtrlPins
  streamMode : StreamMode
deriving DecidableEq, Repr

/-- Answer of `i2c_ack` (R8). -/
inductive Ack
  | ok
  | nack
deriving DecidableEq, Repr, Inhabited

/-- Answer of `pixif_present` (R8). -/
inductive Presence
  | present
  | absent
deriving DecidableEq, Repr, Inhabited

/-- Answer of `alloc(pool)` (R8). -/
inductive AllocAnswer
  | ok
  | fail
deriving DecidableEq, Repr, Inhabited

/-- The two memory pools (R8, R185). -/
inductive Pool
  | primary
  | secondary
deriving DecidableEq, Repr, Inhabited

namespace Config

/-! The constants of R6. -/

def modeCmd : Level := false
def modeData : Level := true
def expRegDir : Byte := 0x06
def expRegOut : Byte := 0x02
def hres : Nat := 480
def vres : Nat := 480
/-- `FB_PIXELS = HRES × VRES` (R7). -/
def fbPixels : Nat := 230400
def tRstHoldMinMs : Nat := 10
def tSettleMinMs : Nat := 100
def tSettleMaxMs : Nat := 150
/-- `BL_ON`, fixed to 1 by decision D12 (R7, R226). -/
def blOn : Level := true
/-- The W flag of a bus write; PRESUMED by the spec itself, passage G1 (log 11). -/
def writeFlag : BitVec 1 := 0

/-! The free values of R8: each is an uninterpreted function of the number of the draw. Nothing can evaluate one,
so what is proved holds whatever the environment answers (log 3). -/

/-- `i2c_ack`. -/
opaque i2cAck : Nat → Ack
/-- `pixif_present`. -/
opaque pixIf : Nat → Presence
/-- `alloc(pool)`. -/
opaque alloc : Nat → Pool → AllocAnswer
/-- `fb_init`: the byte at an address of the buffer whose allocation was this draw (log 7). -/
opaque fbInit : Nat → Nat → Byte
/-- `race_pick`: for each of a pixel's two bytes (`false` the low one), whether the OLD byte is read (R62). -/
opaque racePick : Nat → Bool → Bool
/-- The point of the read window at which a pixel is fetched (R61; log 6). -/
opaque readPoint : Nat → Nat
/-- `blank_data`, fresh at each tick (R195; log 28). -/
opaque blankData : Nat → Pixel
/-- Whether the Streamer, rather than the host's side, moves next where nothing else says so (R198, R296; log 4). -/
opaque streamerTurn : Nat → Bool
/-- What the receiver's accumulator holds before the first chip-select cycle empties it, which R152 does not say; a
constant, since no operation reads it (log 35). -/
opaque receiverBits : List Level

/-! The example parameter set EX of 95_test_vectors.md section 0, with `TABLE_EX` and `MILESTONES_EX` of program P1.
DESIGN CHOICE: the spec calls the values illustrative, not from the source (log 2). -/

def tableEx : List RegisterOp :=
  [.write .selectPage 0xFF01 [0x01], .write .setParam 0xB001 [0x5A],
   .write .selectPage 0xFF02 [0x02], .write .setParam 0xC001 [],
   .write .selectPage 0xFF03 [0x03], .write .setParam 0xD001 [0x11, 0x22],
   .delay 120,
   .write .selectPage 0xFF00 [0x00], .write .setParam 0x0A00 [0x55],
   .write .setParam 0x0B00 [],
   .delay 100,
   .write .setParam 0x0C00 [], .write .setParam 0x0D00 [],
   .delay 150]

def paramsEx : Params where
  expAddr := 0x20
  csBit := 4
  rstBit := 5
  expOutDefault := 0xFFFF
  expDirDefault := 0xFFFF
  tCsSettleUs := 3
  tBitUs := 2
  tCsReleaseUs := 5
  tRstHoldMs := 10
  table := tableEx
  milestones := [1, 3, 5, 7, 8, 9, 11, 12]
  pclkHz := 16000000
  hpw := 2
  hbp := 3
  hfp := 4
  vpw := 1
  vbp := 2
  vfp := 3
  hsyncActive := false
  vsyncActive := false
  deActive := true
  dataPins := ⟨#[0, 1, 2, 3, 4, 5, 6, 7, 8, 9, 10, 11, 12, 13, 14, 15], rfl⟩
  ctrlPins := { hsync := 16, vsync := 17, de := 18, pclk := 19 }
  streamMode := .single

end Config

end Sys2Proof
end

