-- ==== Sys2Proof/Machine/Operands.lean ====
section
/-! DEFINITION. Operand forms and address arithmetic (45_cross_family.md R235, R237, R239): pure functions of operands
and parameters, shared by the well-formedness check and by the meanings. -/

namespace Sys2Proof.Machine

/-! Words. -/

/-- `w[7:0]`. -/
def lowByte (w : Word16) : Byte := w.extractLsb' 0 8

/-- `w[15:8]`. -/
def highByte (w : Word16) : Byte := w.extractLsb' 8 8

/-- `hi ‖ lo` (R112). -/
def joinBytes (hi lo : Byte) : Word16 := hi ++ lo

/-- `frame9 = mode ‖ payload` (R80). -/
def frame9 (m : Level) (p : Byte) : Frame9 := (BitVec.ofBool m ++ p : BitVec (1 + 8))

/-- `word[b] <- v`: the other fifteen bits are unchanged (R235). -/
def insertBit (w : Word16) (b : Fin 16) (v : Level) : Word16 :=
  if v then w ||| (1#16 <<< b.val) else w &&& ~~~(1#16 <<< b.val)

/-- `bit(CS) = CS_BIT`, `bit(RST) = RST_BIT` (R115). -/
def pinBit (p : Params) : Pin → Fin 16
  | .cs => p.csBit
  | .rst => p.rstBit

/-! Rectangles and framebuffer indices. -/

/-- A Rect is valid when `x0 < x1 ≤ HRES` and `y0 < y1 ≤ VRES` (R88). -/
def rectValid (r : Rect) : Bool :=
  r.x0 < r.x1 && r.x1 ≤ Config.hres && r.y0 < r.y1 && r.y1 ≤ Config.vres

/-- `w = x1 - x0` (R88). -/
def rectWidth (r : Rect) : Nat := r.x1 - r.x0

/-- `h = y1 - y0` (R88). -/
def rectHeight (r : Rect) : Nat := r.y1 - r.y0

/-- The index of pixel `(x, y)`: `y × HRES + x` (R52). -/
def pixelIndex (x y : Nat) : Nat := y * Config.hres + x

/-- The indices a rectangle covers, row-major: element `j × w + i` is that of `(x0 + i, y0 + j)` (R89). -/
def rectIndices (r : Rect) : List Nat :=
  (List.range (rectHeight r)).flatMap fun j =>
    (List.range (rectWidth r)).map fun i => pixelIndex (r.x0 + i) (r.y0 + j)

/-! Timing. -/

/-- `HTOTAL` of a configuration (R190). -/
def htotal (t : Timing) : Nat := t.hpw + t.hbp + Config.hres + t.hfp

/-- `VTOTAL` of a configuration (R190). -/
def vtotal (t : Timing) : Nat := t.vpw + t.vbp + Config.vres + t.vfp

/-- The active position `(x, y)` at a scan position, none outside the active window (R192). -/
def activePixel (t : Timing) (hcnt vcnt : Nat) : Option (Nat × Nat) :=
  if t.hpw + t.hbp ≤ hcnt ∧ hcnt < t.hpw + t.hbp + Config.hres ∧
      t.vpw + t.vbp ≤ vcnt ∧ vcnt < t.vpw + t.vbp + Config.vres then
    some (hcnt - (t.hpw + t.hbp), vcnt - (t.vpw + t.vbp))
  else none

/-- The twenty pin numbers of a configuration (R96). -/
def allPins (d : DataPins) (c : CtrlPins) : List Byte := d.toList ++ [c.hsync, c.vsync, c.de, c.pclk]

/-- `well_formed(timing, data_pins, control_pins)` (R181). -/
def configWellFormed (t : Timing) (d : DataPins) (c : CtrlPins) : Bool :=
  t.hres == Config.hres && t.vres == Config.vres && decide (1 ≤ t.hpw) && decide (1 ≤ t.vpw) &&
    decide (1 ≤ t.pclkHz) && !t.pclkInverted && decide (allPins d c).Nodup

/-- `TIMING`: the TimingConfig built from the parameters (R220). -/
def timingOf (p : Params) : Timing where
  pclkHz := p.pclkHz
  hres := Config.hres
  vres := Config.vres
  hpw := p.hpw
  hbp := p.hbp
  hfp := p.hfp
  vpw := p.vpw
  vbp := p.vbp
  vfp := p.vfp
  hsyncActive := p.hsyncActive
  vsyncActive := p.vsyncActive
  deActive := p.deActive
  pclkInverted := false

/-! Well-formedness of the parameters (R7, R93). -/

def entryIsWrite : RegisterOp → Bool
  | .write _ _ _ => true
  | .delay _ => false

/-- A settle delay lies in 100..150 ms (R93 condition 2). -/
def settleMsOk (ms : Nat) : Bool := Config.tSettleMinMs ≤ ms && ms ≤ Config.tSettleMaxMs

def entryOk : RegisterOp → Bool
  | .write _ _ _ => true
  | .delay ms => settleMsOk ms

/-- Conditions 1 to 3 of R93: not empty, every DELAY in its range, exactly three of them. -/
def tableWellFormed (t : List RegisterOp) : Bool :=
  !t.isEmpty && t.all entryOk && (t.filter fun e => !entryIsWrite e).length == 3

/-- Condition 4 of R93: eight strictly increasing indices of WRITE entries. -/
def milestonesWellFormed (t : List RegisterOp) (ms : List Nat) : Bool :=
  ms.length == 8 && decide (ms.Pairwise (· < ·)) && ms.all fun m => (t[m]?.map entryIsWrite).getD false

/-- The places of the three delays (R174): the first after a power/VCOM block, two before the sleep-out entry
(`MILESTONES[7]`), and the third after the display-on entry (`MILESTONES[8]`), the last entry of the table. Which entries
form the power/VCOM block is in no source (N7), so any WRITE that stands before the first delay is taken for one: the
table does not begin with a delay; DESIGN CHOICE, log 22. Not a part of `tableWellFormed`: R93 lists all that may be
assumed of every table, and the exact indices are properties of the table at hand (log 22). -/
def delaysInPlace (t : List RegisterOp) (ms : List Nat) : Bool :=
  match ms[6]?, ms[7]? with
  | some sleepOut, some displayOn =>
    t.head?.any entryIsWrite && (t.take sleepOut).countP (fun e => !entryIsWrite e) == 2 &&
      (t.drop (displayOn + 1)).getLast?.any fun e => !entryIsWrite e
  | _, _ => false

/-- The constraints of R7 and R93 on the parameters. -/
def paramsWellFormed (p : Params) : Bool :=
  p.csBit != p.rstBit && decide (Config.tRstHoldMinMs ≤ p.tRstHoldMs) && tableWellFormed p.table &&
    milestonesWellFormed p.table p.milestones && configWellFormed (timingOf p) p.dataPins p.ctrlPins

end Sys2Proof.Machine
end

