-- ==== Sys2Proof/Syntax.lean ====
section
/-! DEFINITION. The operations of the block, one constructor for each row of spec/opcode_table.json (30_encoding.md
R100, R103, R104), its operands of the types the rules state. -/

namespace Sys2Proof

inductive Instr
  /-- FRAME_CMD (R81): a serial frame of mode 0. -/
  | frameCmd (p : Byte)
  /-- FRAME_DATA (R81): a serial frame of mode 1. -/
  | frameData (p : Byte)
  /-- SPLIT_CMD (R82): frame A with the high byte, frame B with the low byte. -/
  | splitCmd (h : Byte) (l : Byte)
  /-- I2C_WRITE (R85): address, W flag, register, low byte, high byte. -/
  | i2cWrite (a : BusAddr) (w : BitVec 1) (r : Byte) (l : Byte) (h : Byte)
  /-- I2C_WRITE_DIR (R112): the write to register 0x06. -/
  | i2cWriteDir (a : BusAddr) (w : BitVec 1) (l : Byte) (h : Byte)
  /-- I2C_WRITE_OUT (R112): the write to register 0x02. -/
  | i2cWriteOut (a : BusAddr) (w : BitVec 1) (l : Byte) (h : Byte)
  /-- REGOP.WRITE (R92): a WRITE entry of the table. -/
  | entryWrite (op : PageOp) (code : Word16) (payload : List Byte)
  /-- REGOP.DELAY (R92): a DELAY entry of the table. -/
  | entryDelay (ms : Nat)
  /-- EXP_INIT (R110). -/
  | expInit
  /-- EXP_SET (R115). -/
  | expSet (pin : Pin) (level : Level)
  /-- EXP_GET (R118). -/
  | expGet (pin : Pin)
  /-- LINK_INIT (R130). -/
  | linkInit
  /-- SEND_DATA (R144). -/
  | sendData (byte : Byte)
  /-- SEND_COMMAND (R146). -/
  | sendCommand (code : Word16)
  /-- PANEL_RESET (R160). -/
  | panelReset
  /-- PROG_RUN (R170). -/
  | progRun
  /-- TS_CONFIGURE (R180). -/
  | tsConfigure (timing : Timing) (dataPins : DataPins) (ctrlPins : CtrlPins)
  /-- TS_START (R185). -/
  | tsStart
  /-- TS_NOTIFY (R205). -/
  | tsNotify (rect : Rect)
  /-- BRING_UP (R220). -/
  | bringUp
  /-- BACKLIGHT_ON (R226). -/
  | backlightOn
  /-- FLUSH (R230). -/
  | flush (rect : Rect) (pixels : List Pixel)
  /-- XFER (R140): mode bit and payload. -/
  | xfer (m : Level) (p : Byte)
  /-- LINE_SET (R133). -/
  | lineSet (line : Line) (n : Level)
  /-- DELAY_US (R135). -/
  | delayUs (n : Nat)
  /-- DELAY_MS (R135). -/
  | delayMs (n : Nat)
  /-- REGOP_WRITE (R164): the replay of a WRITE entry. -/
  | regopWrite (op : PageOp) (code : Word16) (payload : List Byte)
  /-- REGOP_DELAY (R166): the replay of a DELAY entry. -/
  | regopDelay (ms : Nat)
  /-- TS_TICK (R192). -/
  | tsTick
  /-- CS(n) (R103). -/
  | cs (n : Level)
  /-- RST(n) (R103). -/
  | rst (n : Level)
  /-- CLK(n) (R103). -/
  | clk (n : Level)
  /-- SDA(n) (R103). -/
  | sda (n : Level)
  /-- BL(n) (R103). -/
  | bl (n : Level)
  /-- WRITE_REG(c, ps) (R103). -/
  | writeReg (c : Word16) (ps : List Byte)
deriving DecidableEq, Repr

end Sys2Proof
end

