-- ==== Sys2Proof/WellFormed.lean ====
section
/-! DEFINITION. Which operations have operands in the sets the rules state, beyond what the types of Syntax.lean
already ensure. exec does not consult this check: a meaning decides for itself what an operand outside the set does. -/

namespace Sys2Proof

open Machine

/-- The operand conditions of each row: the W flag and the register number of a bus write (R85), the range of a DELAY
entry (R93), the configuration of TS_CONFIGURE (R181), the rectangle of TS_NOTIFY (R205), the pixel count of FLUSH (R89). -/
def Instr.wf : Instr → Bool
  | .i2cWrite _ w r _ _ => w == Config.writeFlag && (r == Config.expRegDir || r == Config.expRegOut)
  | .i2cWriteDir _ w _ _ => w == Config.writeFlag
  | .i2cWriteOut _ w _ _ => w == Config.writeFlag
  | .entryDelay ms => settleMsOk ms
  | .regopDelay ms => settleMsOk ms
  | .tsConfigure t d c => configWellFormed t d c
  | .tsNotify r => rectValid r
  | .flush r ps => !rectValid r || ps.length == rectWidth r * rectHeight r
  | .frameCmd _ | .frameData _ | .splitCmd _ _ | .entryWrite _ _ _ | .expInit | .expSet _ _ | .expGet _
  | .linkInit | .sendData _ | .sendCommand _ | .panelReset | .progRun | .tsStart | .bringUp | .backlightOn
  | .xfer _ _ | .lineSet _ _ | .delayUs _ | .delayMs _ | .regopWrite _ _ _ | .tsTick
  | .cs _ | .rst _ | .clk _ | .sda _ | .bl _ | .writeReg _ _ => true

end Sys2Proof
end

