-- ==== Sys2Proof/Decode.lean ====
section
/-! DEFINITION. Requests as words, the decoder (total, rejecting by name) and the encoder.
The bit layouts of the 9-bit frame, the pair and the bus write are the spec's (R80, R82, R85), and so is the op_id of a
descriptor (R100). DESIGN CHOICE: the spec gives operands, table records and pseudo-operations no binary form, so an
operand is one word (a natural) and the numbers of names are this model's (log 8). -/

namespace Sys2Proof

/-- The formats of the opcode table (R104). -/
inductive Format
  | serialFrame
  | serialPair
  | busWrite
  | descriptor
  | tableEntry
  | pseudo
deriving DecidableEq, Repr

/-- A request: its format and its words, the first one first. -/
structure Request where
  format : Format
  words : List Nat
deriving DecidableEq, Repr

/-- Why a request is no operation (R101). -/
inductive DecodeError
  /-- An `op_id` that is not in the table of R100. -/
  | unknownOpId (n : Nat)
  /-- A pin that is neither CS nor RST. -/
  | badPin (n : Nat)
  /-- A line that is none of CLK, SDA, BL. -/
  | badLine (n : Nat)
  /-- A level, a flag or a mode bit other than 0 and 1. -/
  | badLevel (n : Nat)
  /-- A u8 operand out of range. -/
  | badByte (n : Nat)
  /-- A u16 operand out of range. -/
  | badWord (n : Nat)
  /-- An entry opcode that is neither SELECT_PAGE nor SET_PARAM. -/
  | badPageOp (n : Nat)
  /-- A serial frame of more than nine bits. -/
  | badFrame (n : Nat)
  /-- A pair whose first frame is no command frame or whose second is no data frame. -/
  | badPair (a : Nat) (b : Nat)
  /-- A table record that is neither WRITE nor DELAY. -/
  | badEntryKind (n : Nat)
  /-- A pseudo-operation not in the table of R103. -/
  | unknownPseudo (n : Nat)
  /-- Too few or too many operand words. -/
  | badOperandCount
deriving DecidableEq, Repr

/-! Operands. -/

def asByte (n : Nat) : Except DecodeError Byte :=
  if n < 256 then .ok (BitVec.ofNat 8 n) else .error (.badByte n)

def asWord (n : Nat) : Except DecodeError Word16 :=
  if n < 65536 then .ok (BitVec.ofNat 16 n) else .error (.badWord n)

def asLevel : Nat → Except DecodeError Level
  | 0 => .ok false
  | 1 => .ok true
  | n => .error (.badLevel n)

def asPin : Nat → Except DecodeError Pin
  | 0 => .ok .cs
  | 1 => .ok .rst
  | n => .error (.badPin n)

def asLine : Nat → Except DecodeError Line
  | 0 => .ok .clk
  | 1 => .ok .sda
  | 2 => .ok .bl
  | n => .error (.badLine n)

def asPageOp : Nat → Except DecodeError PageOp
  | 0 => .ok .selectPage
  | 1 => .ok .setParam
  | n => .error (.badPageOp n)

def asBytes : List Nat → Except DecodeError (List Byte)
  | [] => .ok []
  | n :: ns => do
    let b ← asByte n
    let bs ← asBytes ns
    return b :: bs

def asWords : List Nat → Except DecodeError (List Word16)
  | [] => .ok []
  | n :: ns => do
    let w ← asWord n
    let ws ← asWords ns
    return w :: ws

def asDataPins (ns : List Nat) : Except DecodeError DataPins := do
  let bs ← asBytes ns
  if h : bs.length = 16 then return ⟨bs.toArray, by simp [h]⟩ else throw .badOperandCount

def asCtrlPins : List Nat → Except DecodeError CtrlPins
  | [h, v, d, p] => do
    return { hsync := ← asByte h, vsync := ← asByte v, de := ← asByte d, pclk := ← asByte p }
  | _ => .error .badOperandCount

/-- A list operand: its length, then its elements. -/
def counted (n : Nat) (ns : List Nat) : Except DecodeError (List Nat) :=
  if ns.length = n then .ok ns else .error .badOperandCount

def noOperands (i : Instr) : List Nat → Except DecodeError Instr
  | [] => .ok i
  | _ => .error .badOperandCount

/-- `op, code, payload` of a WRITE entry (R92). -/
def asWriteEntry (mk : PageOp → Word16 → List Byte → Instr) : List Nat → Except DecodeError Instr
  | o :: c :: n :: ps => do
    let op ← asPageOp o
    let code ← asWord c
    let bytes ← asBytes (← counted n ps)
    return mk op code bytes
  | _ => .error .badOperandCount

def decodeExpSet : List Nat → Except DecodeError Instr
  | [p, n] => do return .expSet (← asPin p) (← asLevel n)
  | _ => .error .badOperandCount

def decodeExpGet : List Nat → Except DecodeError Instr
  | [p] => do return .expGet (← asPin p)
  | _ => .error .badOperandCount

def decodeSendData : List Nat → Except DecodeError Instr
  | [b] => do return .sendData (← asByte b)
  | _ => .error .badOperandCount

def decodeSendCommand : List Nat → Except DecodeError Instr
  | [c] => do return .sendCommand (← asWord c)
  | _ => .error .badOperandCount

/-- The thirteen words of TimingConfig in R31's order, then the sixteen data pins, then the four control pins. -/
def decodeTsConfigure : List Nat → Except DecodeError Instr
  | pclk :: hres :: vres :: hpw :: hbp :: hfp :: vpw :: vbp :: vfp :: hs :: vs :: de :: inv :: pins => do
    let timing : Timing :=
      { pclkHz := pclk, hres := hres, vres := vres, hpw := hpw, hbp := hbp, hfp := hfp, vpw := vpw, vbp := vbp,
        vfp := vfp, hsyncActive := ← asLevel hs, vsyncActive := ← asLevel vs, deActive := ← asLevel de,
        pclkInverted := ← asLevel inv }
    let data ← asDataPins (pins.take 16)
    let ctrl ← asCtrlPins (pins.drop 16)
    return .tsConfigure timing data ctrl
  | _ => .error .badOperandCount

def decodeTsNotify : List Nat → Except DecodeError Instr
  | [x0, y0, x1, y1] => .ok (.tsNotify { x0 := x0, y0 := y0, x1 := x1, y1 := y1 })
  | _ => .error .badOperandCount

def decodeFlush : List Nat → Except DecodeError Instr
  | x0 :: y0 :: x1 :: y1 :: n :: ps => do
    let pixels ← asWords (← counted n ps)
    return .flush { x0 := x0, y0 := y0, x1 := x1, y1 := y1 } pixels
  | _ => .error .badOperandCount

def decodeXfer : List Nat → Except DecodeError Instr
  | [m, p] => do return .xfer (← asLevel m) (← asByte p)
  | _ => .error .badOperandCount

def decodeLineSet : List Nat → Except DecodeError Instr
  | [l, n] => do return .lineSet (← asLine l) (← asLevel n)
  | _ => .error .badOperandCount

/-- An operation of one natural operand. -/
def decodeNat (mk : Nat → Instr) : List Nat → Except DecodeError Instr
  | [n] => .ok (mk n)
  | _ => .error .badOperandCount

/-- A pseudo-operation of one level operand. -/
def decodeOneLevel (mk : Level → Instr) : List Nat → Except DecodeError Instr
  | [n] => do return mk (← asLevel n)
  | _ => .error .badOperandCount

def decodeWriteReg : List Nat → Except DecodeError Instr
  | c :: n :: ps => do
    let code ← asWord c
    let bytes ← asBytes (← counted n ps)
    return .writeReg code bytes
  | _ => .error .badOperandCount

/-- The operation descriptors of R100: `op_id`, then the operands. The internal steps 0x80 to 0x86, which R100 says no
host issues, are requests like the others; DESIGN CHOICE, log 31. -/
def decodeDescriptor (op : Nat) (args : List Nat) : Except DecodeError Instr :=
  match op with
  | 0x01 => noOperands .expInit args
  | 0x02 => decodeExpSet args
  | 0x03 => decodeExpGet args
  | 0x10 => noOperands .linkInit args
  | 0x11 => decodeSendData args
  | 0x12 => decodeSendCommand args
  | 0x20 => noOperands .panelReset args
  | 0x21 => noOperands .progRun args
  | 0x30 => decodeTsConfigure args
  | 0x31 => noOperands .tsStart args
  | 0x32 => decodeTsNotify args
  | 0x40 => noOperands .bringUp args
  | 0x41 => noOperands .backlightOn args
  | 0x42 => decodeFlush args
  | 0x80 => decodeXfer args
  | 0x81 => decodeLineSet args
  | 0x82 => decodeNat .delayUs args
  | 0x83 => decodeNat .delayMs args
  | 0x84 => asWriteEntry .regopWrite args
  | 0x85 => decodeNat .regopDelay args
  | 0x86 => noOperands .tsTick args
  | n => .error (.unknownOpId n)

/-- Table records (R92); kind 0 is WRITE, kind 1 is DELAY (log 8). -/
def decodeEntry (kind : Nat) (args : List Nat) : Except DecodeError Instr :=
  match kind with
  | 0 => asWriteEntry .entryWrite args
  | 1 => decodeNat .entryDelay args
  | n => .error (.badEntryKind n)

/-- Pseudo-operations in the order of R103's table (log 8), requests like the others; DESIGN CHOICE, log 31. -/
def decodePseudo (kind : Nat) (args : List Nat) : Except DecodeError Instr :=
  match kind with
  | 0 => decodeOneLevel .cs args
  | 1 => decodeOneLevel .clk args
  | 2 => decodeOneLevel .sda args
  | 3 => decodeOneLevel .rst args
  | 4 => decodeOneLevel .bl args
  | 5 => decodeWriteReg args
  | n => .error (.unknownPseudo n)

/-- One serial frame: bit 8 alone tells the two kinds apart (R81). -/
def decodeFrame : List Nat → Except DecodeError Instr
  | [f] =>
    if f < 256 then .ok (.frameCmd (BitVec.ofNat 8 f))
    else if f < 512 then .ok (.frameData (BitVec.ofNat 8 f))
    else .error (.badFrame f)
  | _ => .error .badOperandCount

/-- Frame A of mode 0, then frame B of mode 1 (R82). -/
def decodePair : List Nat → Except DecodeError Instr
  | [a, b] =>
    if a < 256 ∧ 256 ≤ b ∧ b < 512 then .ok (.splitCmd (BitVec.ofNat 8 a) (BitVec.ofNat 8 b))
    else .error (.badPair a b)
  | _ => .error .badOperandCount

/-- The four bytes of a bus write, byte 0 first; register 0x06 and 0x02 are the two instances (R85, R104). -/
def decodeBusWrite : List Nat → Except DecodeError Instr
  | [b0, b1, b2, b3] => do
    let aw ← asByte b0
    let r ← asByte b1
    let l ← asByte b2
    let h ← asByte b3
    let a := aw.extractLsb' 1 7
    let w := aw.extractLsb' 0 1
    if r = Config.expRegDir then return .i2cWriteDir a w l h
    else if r = Config.expRegOut then return .i2cWriteOut a w l h
    else return .i2cWrite a w r l h
  | _ => .error .badOperandCount

/-- The decoder: every request is an operation or is rejected by name. -/
def decode (q : Request) : Except DecodeError Instr :=
  match q.format, q.words with
  | .serialFrame, ws => decodeFrame ws
  | .serialPair, ws => decodePair ws
  | .busWrite, ws => decodeBusWrite ws
  | .descriptor, op :: args => decodeDescriptor op args
  | .tableEntry, kind :: args => decodeEntry kind args
  | .pseudo, kind :: args => decodePseudo kind args
  | .descriptor, [] => .error .badOperandCount
  | .tableEntry, [] => .error .badOperandCount
  | .pseudo, [] => .error .badOperandCount

/-! The encoder, from the same rules. -/

def ofLevel (b : Level) : Nat := if b then 1 else 0

def ofPin : Pin → Nat
  | .cs => 0
  | .rst => 1

def ofLine : Line → Nat
  | .clk => 0
  | .sda => 1
  | .bl => 2

def ofPageOp : PageOp → Nat
  | .selectPage => 0
  | .setParam => 1

def ofBytes (bs : List Byte) : List Nat := bs.map BitVec.toNat

def ofWords (ws : List Word16) : List Nat := ws.map BitVec.toNat

def ofTiming (t : Timing) : List Nat :=
  [t.pclkHz, t.hres, t.vres, t.hpw, t.hbp, t.hfp, t.vpw, t.vbp, t.vfp, ofLevel t.hsyncActive, ofLevel t.vsyncActive,
    ofLevel t.deActive, ofLevel t.pclkInverted]

def ofCtrlPins (c : CtrlPins) : List Nat := ofBytes [c.hsync, c.vsync, c.de, c.pclk]

def ofRect (r : Rect) : List Nat := [r.x0, r.y0, r.x1, r.y1]

def ofWriteEntry (op : PageOp) (code : Word16) (payload : List Byte) : List Nat :=
  ofPageOp op :: code.toNat :: payload.length :: ofBytes payload

/-- Byte 0 of a bus write: the address in bits 7:1, the W flag in bit 0 (R85). -/
def addrByte (a : BusAddr) (w : BitVec 1) : Byte := (a ++ w : BitVec (7 + 1))

def busWords (a : BusAddr) (w : BitVec 1) (r l h : Byte) : List Nat := ofBytes [addrByte a w, r, l, h]

/-- `mode ‖ payload` as a number (R80). -/
def frameWord (m : Level) (p : Byte) : Nat := (Machine.frame9 m p).toNat

/-- The request that stands for an operation. -/
def encode : Instr → Request
  | .frameCmd p => ⟨.serialFrame, [frameWord false p]⟩
  | .frameData p => ⟨.serialFrame, [frameWord true p]⟩
  | .splitCmd h l => ⟨.serialPair, [frameWord false h, frameWord true l]⟩
  | .i2cWrite a w r l h => ⟨.busWrite, busWords a w r l h⟩
  | .i2cWriteDir a w l h => ⟨.busWrite, busWords a w Config.expRegDir l h⟩
  | .i2cWriteOut a w l h => ⟨.busWrite, busWords a w Config.expRegOut l h⟩
  | .entryWrite op code ps => ⟨.tableEntry, 0 :: ofWriteEntry op code ps⟩
  | .entryDelay ms => ⟨.tableEntry, [1, ms]⟩
  | .expInit => ⟨.descriptor, [0x01]⟩
  | .expSet p n => ⟨.descriptor, [0x02, ofPin p, ofLevel n]⟩
  | .expGet p => ⟨.descriptor, [0x03, ofPin p]⟩
  | .linkInit => ⟨.descriptor, [0x10]⟩
  | .sendData b => ⟨.descriptor, [0x11, b.toNat]⟩
  | .sendCommand c => ⟨.descriptor, [0x12, c.toNat]⟩
  | .panelReset => ⟨.descriptor, [0x20]⟩
  | .progRun => ⟨.descriptor, [0x21]⟩
  | .tsConfigure t d c => ⟨.descriptor, 0x30 :: (ofTiming t ++ (ofBytes d.toList ++ ofCtrlPins c))⟩
  | .tsStart => ⟨.descriptor, [0x31]⟩
  | .tsNotify r => ⟨.descriptor, 0x32 :: ofRect r⟩
  | .bringUp => ⟨.descriptor, [0x40]⟩
  | .backlightOn => ⟨.descriptor, [0x41]⟩
  | .flush r ps => ⟨.descriptor, 0x42 :: (ofRect r ++ ps.length :: ofWords ps)⟩
  | .xfer m p => ⟨.descriptor, [0x80, ofLevel m, p.toNat]⟩
  | .lineSet l n => ⟨.descriptor, [0x81, ofLine l, ofLevel n]⟩
  | .delayUs n => ⟨.descriptor, [0x82, n]⟩
  | .delayMs n => ⟨.descriptor, [0x83, n]⟩
  | .regopWrite op code ps => ⟨.descriptor, 0x84 :: ofWriteEntry op code ps⟩
  | .regopDelay ms => ⟨.descriptor, [0x85, ms]⟩
  | .tsTick => ⟨.descriptor, [0x86]⟩
  | .cs n => ⟨.pseudo, [0, ofLevel n]⟩
  | .clk n => ⟨.pseudo, [1, ofLevel n]⟩
  | .sda n => ⟨.pseudo, [2, ofLevel n]⟩
  | .rst n => ⟨.pseudo, [3, ofLevel n]⟩
  | .bl n => ⟨.pseudo, [4, ofLevel n]⟩
  | .writeReg c ps => ⟨.pseudo, 5 :: c.toNat :: ps.length :: ofBytes ps⟩

/-- The general bus write with register number 0x06 or 0x02 has the words of the instance, which is what decoding
gives back (R104). -/
def Instr.canonical : Instr → Instr
  | .i2cWrite a w r l h =>
    if r = Config.expRegDir then .i2cWriteDir a w l h
    else if r = Config.expRegOut then .i2cWriteOut a w l h
    else .i2cWrite a w r l h
  | i => i

/-! The opcode table's words. -/

/-- How many operand words a descriptor has when all of them are zero (a list operand of length 0 included). -/
def zeroOperands : Nat → Nat
  | 0x02 => 2
  | 0x03 => 1
  | 0x11 => 1
  | 0x12 => 1
  | 0x30 => 33
  | 0x32 => 4
  | 0x42 => 5
  | 0x80 => 2
  | 0x81 => 2
  | 0x82 => 1
  | 0x83 => 1
  | 0x84 => 3
  | 0x85 => 1
  | _ => 0

/-- The request whose bits are `w`: 8 bits are an op_id, 9 (or 16) a serial frame, 18 (or 24) a pair with frame A in
the higher bits, 32 a bus write with byte 0 in the highest bits. Operand words are zero. -/
def tableRequest (nbits w : Nat) : Request :=
  if nbits ≤ 8 then ⟨.descriptor, w :: List.replicate (zeroOperands w) 0⟩
  else if nbits ≤ 16 then ⟨.serialFrame, [w]⟩
  else if nbits ≤ 24 then ⟨.serialPair, [w / 512, w % 512]⟩
  else ⟨.busWrite, [w / 16777216, w / 65536 % 256, w / 256 % 256, w % 256]⟩

/-- What the decoder reads from an instruction whose bits are `w`, numbered as the opcode table numbers them. -/
def decodeTableWord (nbits w : Nat) : Option Instr :=
  (decode (tableRequest nbits w)).toOption

end Sys2Proof
end

