-- ==== Sys2Proof/Machine/State.lean ====
section
/-! DEFINITION. The state of the block as plain data (10_state.md), its events and errors, the reasons a step can stop,
and the state after reset (R45). -/

namespace Sys2Proof.Machine

/-- The latch of a raw output line: no level before LINK_INIT (R17, R18, U21). -/
inductive Pad
  | unconfigured
  | driven (level : Level)
deriving DecidableEq, Repr

/-- The nine named states of the programmer, in order (R26). -/
inductive PpState
  | reset
  | page1Programmed
  | page2Programmed
  | page3Programmed
  | backToPage0
  | pixelFormatSet
  | invertedOn
  | awake
  | displaying
deriving DecidableEq, Repr

/-- The life cycle of the streamer (R30). -/
inductive TsState
  | unconfigured
  | configured
  | running
deriving DecidableEq, Repr

/-- The latched configuration `ts_cfg` (R31). -/
structure TsCfg where
  timing : Timing
  dataPins : DataPins
  ctrlPins : CtrlPins
deriving DecidableEq, Repr

/-- The two framebuffers (R33). -/
inductive Buffer
  | zero
  | one
deriving DecidableEq, Repr

/-- Bytes that have been written, by address: strictly rising addresses, one cell each. -/
abbrev Memory := List Host.Cell

/-- A framebuffer: the number of the draw that fixed its initial contents `fb_init`, and what has been written since.
Pixel `i` is the bytes at `2i` (low) and `2i + 1` (high) (log 7). -/
structure Framebuffer where
  drawn : Nat
  cells : Memory
deriving DecidableEq, Repr

/-- What the Streamer can find in the front buffer at one moment: its contents, or, while a SINGLE-mode FLUSH is in
flight, the contents before and after it (R62). -/
inductive FbView
  | stable (fb : Framebuffer)
  | racing (old : Framebuffer) (new : Framebuffer)
deriving DecidableEq, Repr

/-- What the Writer does next in its FLUSH, whose pixels are written (R230; log 5). -/
inductive FlushPhase
  /-- Call TS_NOTIFY. -/
  | notify
  /-- Wait for the flip, then copy back (DOUBLE mode). -/
  | flip
  /-- Clear `flush_in_flight` and return. -/
  | complete
deriving DecidableEq, Repr

/-- The FLUSH in flight: its rectangle, the staging buffer as it was before, and how far the FLUSH has come (R37, R62,
R230). -/
structure FlushJob where
  rect : Rect
  before : Framebuffer
  phase : FlushPhase
deriving DecidableEq, Repr

/-- The stage an error names (R241, R242). -/
inductive Stage
  | expInit
  | tsConfigure
  | tsStart
deriving DecidableEq, Repr

/-- The error results (R241, R242, R244). -/
inductive Err
  | transportAbsent (stage : Stage)
  | alloc (stage : Stage)
  | invalidRegion (rect : Rect)
deriving DecidableEq, Repr

/-- What an operation gives back to its caller (R100, column "result"). -/
inductive OpResult
  | void
  | ok
  | ready
  | level (n : Level)
  | error (e : Err)
deriving DecidableEq, Repr

/-- The events of the control trace (R9, R40). -/
inductive Event
  | i2cProbe (addr : BusAddr) (r : Ack)
  | i2cWrite (addr : BusAddr) (reg : Byte) (lo : Byte) (hi : Byte) (r : Ack)
  | pinCfg (line : Line)
  | line (line : Line) (level : Level)
  | delayUs (n : Nat)
  | delayMs (n : Nat)
  | pixIfProbe (r : Presence)
  | alloc (pool : Pool) (r : AllocAnswer)
  | diag (e : Err)
deriving DecidableEq, Repr

/-- The events of the scanout trace (R9, R40). -/
inductive ScanEvent
  | pix (hs : Level) (vs : Level) (de : Level) (d : Pixel)
  | flip
deriving DecidableEq, Repr

/-- Who moves in a step (R256): the Streamer, the Sequencer going on with the BRING_UP under way, the Writer going on
with the FLUSH in flight, or the host issuing its next request. -/
inductive Turn
  | streamer
  | sequencer
  | writer
  | request
deriving DecidableEq, Repr

structure State where
  /-- The parameters of R7; written by nothing. -/
  params : Params
  /-- R12. -/
  expMirror : Word16
  /-- R13. -/
  expInitialized : Bool
  /-- The chip's register 0x02 (R14). -/
  expHwOut : Word16
  /-- The chip's register 0x06 (R14). -/
  expHwDir : Word16
  /-- R15. -/
  linkConfigured : Bool
  /-- R17. -/
  clk : Pad
  /-- R17. -/
  sda : Pad
  /-- R18. -/
  bl : Pad
  /-- R25. -/
  ppIndex : Nat
  /-- R26. -/
  ppState : PpState
  /-- R27. -/
  ppDone : Bool
  /-- R30. -/
  tsState : TsState
  /-- R31. -/
  tsCfg : TsCfg
  /-- R32. -/
  hcnt : Nat
  /-- R32. -/
  vcnt : Nat
  /-- `FB[0]`, absent before TS_START (R33). -/
  fb0 : Option Framebuffer
  /-- `FB[1]`, absent before TS_START and in SINGLE mode (R33). -/
  fb1 : Option Framebuffer
  /-- R33. -/
  front : Buffer
  /-- R33. -/
  fbPool : Pool
  /-- R34. -/
  flipPending : Bool
  /-- R34. -/
  flipRect : Rect
  /-- Ghost (R35). -/
  frameNo : Nat
  /-- R36. -/
  panelReady : Bool
  /-- `flush_in_flight` and the FLUSH it stands for (R37). -/
  flush : Option FlushJob
  /-- R38. -/
  bringupError : Option Err
  /-- Model's own: BRING_UP has started the Streamer and has yet to return, so the Streamer may already tick
  (R256; log 5). -/
  bringUpReturning : Bool
  /-- The control trace, oldest event first (R40). -/
  tr : List Event
  /-- The scanout trace, oldest event first (R40). -/
  scan : List ScanEvent
  /-- Model's own: what the front buffer looked like earlier in the video frame under way (R61; log 6). -/
  earlierViews : List FbView
  /-- Model's own: the requests the host has yet to issue (log 4). -/
  requests : List Request
  /-- Model's own: who moves next, as far as it is fixed (log 4). -/
  turns : List Turn
  /-- Model's own: the next answers of `i2c_ack`, as far as they are fixed (log 3). -/
  acks : List Ack
  /-- Model's own: the next answers of `pixif_present` (log 3). -/
  pixIfAnswers : List Presence
  /-- Model's own: the next answers of `alloc` (log 3). -/
  allocAnswers : List AllocAnswer
  /-- Model's own: how many free values have been drawn (log 3). -/
  draws : Nat
  /-- Model's own: the result of the last operation that returned (log 14). -/
  lastResult : Option OpResult
deriving DecidableEq, Repr

/-- The one way a meaning stops with a fault. -/
inductive Fault
  /-- Raised by TS_TICK, FLUSH and the completion of a FLUSH when the framebuffer they access does not exist (R33).
  Safe: the machine stops. No run reaches it (log 21). -/
  | noFramebuffer
deriving DecidableEq, Repr

/-- Requests the spec gives no meaning (R259), each safe: the model has no step, so nothing can be claimed of a run
that holds one. -/
inductive Refusal
  /-- Raised by exec's arm of an instruction that has no meaning yet. Safe. -/
  | notModelled (mnemonic : String)
  /-- Raised by every link and programmer operation before LINK_INIT (R131). Safe. -/
  | linkNotConfigured
  /-- Raised by TS_CONFIGURE, also inside BRING_UP, when not UNCONFIGURED (R180). Safe. -/
  | alreadyConfigured
  /-- Raised by TS_CONFIGURE, also inside BRING_UP, with a configuration that is not well formed (R181). Safe. -/
  | badConfig
  /-- Raised by TS_START when not CONFIGURED (R185). Safe. -/
  | notConfiguredOrAlreadyRunning
  /-- Raised by TS_START after a failed BRING_UP, where the Streamer must not start (R287, R220; log 32). Safe. -/
  | bringUpFailed
  /-- Raised by TS_NOTIFY, also inside FLUSH and looked up before its writes, when not RUNNING (R205). Safe. -/
  | notRunning
  /-- Raised by TS_NOTIFY with an invalid rectangle (R205). Safe. -/
  | badRect
  /-- Raised by TS_NOTIFY, also inside FLUSH and looked up before its writes, while a flip is pending in DOUBLE mode
  (R205; log 24). Safe. -/
  | flipAlreadyPending
  /-- Raised by a second BRING_UP, also before the first has returned (R223). Safe. -/
  | bringUpOnce
  /-- Raised by FLUSH without a ready handle (R230). Safe. -/
  | noHandle
  /-- Raised by FLUSH while one is in flight (R233). Safe. -/
  | concurrentFlush
  /-- Raised by FLUSH with a pixel list that is not w × h long (R230). Safe. -/
  | badLength
  /-- Raised by the three bus-write rows when the W flag is not that of a write (R85, R101; log 11). Safe. -/
  | badOperand
  /-- Raised by step for a request that is no operation (R101), with the decoder's reason. Safe. -/
  | badRequest (why : DecodeError)
  /-- Raised by a requested TS_TICK while the Streamer is not RUNNING (R192: not enabled; log 20). Safe. -/
  | tickNotEnabled
deriving DecidableEq, Repr

/-- The all-zero configuration that `ts_cfg` holds until TS_CONFIGURE writes it; DESIGN CHOICE, R45 leaves it
unspecified (log 16). -/
def TsCfg.zero : TsCfg where
  timing :=
    { pclkHz := 0, hres := 0, vres := 0, hpw := 0, hbp := 0, hfp := 0, vpw := 0, vbp := 0, vfp := 0,
      hsyncActive := false, vsyncActive := false, deActive := false, pclkInverted := false }
  dataPins := ⟨#[0, 0, 0, 0, 0, 0, 0, 0, 0, 0, 0, 0, 0, 0, 0, 0], rfl⟩
  ctrlPins := { hsync := 0, vsync := 0, de := 0, pclk := 0 }

/-- The state after reset for any parameters: R45's table, and the values of logs 15 to 17 where it gives none. -/
def State.resetWith (p : Params) : State where
  params := p
  expMirror := p.expOutDefault
  expInitialized := false
  expHwOut := p.expOutDefault
  expHwDir := p.expDirDefault
  linkConfigured := false
  clk := .unconfigured
  sda := .unconfigured
  bl := .unconfigured
  ppIndex := 0
  ppState := .reset
  ppDone := false
  tsState := .unconfigured
  tsCfg := TsCfg.zero
  hcnt := 0
  vcnt := 0
  fb0 := none
  fb1 := none
  front := .zero
  fbPool := .primary
  flipPending := false
  flipRect := { x0 := 0, y0 := 0, x1 := 0, y1 := 0 }
  frameNo := 0
  panelReady := false
  flush := none
  bringupError := none
  bringUpReturning := false
  tr := []
  scan := []
  earlierViews := []
  requests := []
  turns := []
  acks := []
  pixIfAnswers := []
  allocAnswers := []
  draws := 0
  lastResult := none

/-- The state after reset under the example parameters (log 2). -/
def State.reset : State := State.resetWith Config.paramsEx

end Sys2Proof.Machine
end

