-- ==== Sys2Proof/Machine/Flags.lean ====
section
/-! DEFINITION. The status bits (10_state.md R41: the block has no condition codes), and the levels the rules compute:
the two lines behind the expander (R14) and the sync and enable levels of the scanout (R193). -/

namespace Sys2Proof.Machine

/-- `flush_in_flight` (R37). -/
def flushInFlight (s : State) : Bool := s.flush.isSome

/-- The six status bits of R41. -/
structure StatusFlags where
  expInitialized : Bool
  linkConfigured : Bool
  ppDone : Bool
  flipPending : Bool
  flushInFlight : Bool
  panelReady : Bool
deriving DecidableEq, Repr

/-- The status bits a state shows. -/
def statusFlags (s : State) : StatusFlags where
  expInitialized := s.expInitialized
  linkConfigured := s.linkConfigured
  ppDone := s.ppDone
  flipPending := s.flipPending
  flushInFlight := flushInFlight s
  panelReady := s.panelReady

/-- A line behind the expander: driven to its output bit when its direction bit is 0, undriven otherwise (R14). -/
def expanderLine (dir out : Word16) (b : Fin 16) : Option Level :=
  if dir.getLsbD b.val then none else some (out.getLsbD b.val)

/-- `CS_LINE` (R14); `none` is undriven. -/
def csLine (s : State) : Option Level := expanderLine s.expHwDir s.expHwOut s.params.csBit

/-- `RST_LINE` (R14). -/
def rstLine (s : State) : Option Level := expanderLine s.expHwDir s.expHwOut s.params.rstBit

/-- A polarity: the active level while the condition holds, the opposite level otherwise (R193). -/
def polarity (active : Level) (c : Bool) : Level := if c then active else !active

/-- `hs` at a scan position (R192, R193). -/
def hsyncLevel (t : Timing) (hcnt : Nat) : Level := polarity t.hsyncActive (decide (hcnt < t.hpw))

/-- `vs` at a scan position (R192, R193). -/
def vsyncLevel (t : Timing) (vcnt : Nat) : Level := polarity t.vsyncActive (decide (vcnt < t.vpw))

/-- `de` at a scan position (R192, R193). -/
def deLevel (t : Timing) (hcnt vcnt : Nat) : Level := polarity t.deActive (activePixel t hcnt vcnt).isSome

end Sys2Proof.Machine
end

