-- ==== Sys2Proof/Machine/Ops.lean ====
section
/-! DEFINITION. The named operations over memory, the traces and the environment that the meanings share, and the one
operation that ends an operation with an error (60_exceptions.md R240) beside the one that ends it normally. -/

namespace Sys2Proof.Machine

/-- How exec and step answer. -/
abbrev Answer := Host.Outcome State Fault Refusal

/-! Memory: written bytes in canonical form. An unlisted address has not been written. -/

/-- Strictly rising addresses. What an unlisted address reads as is no written byte, so no entry can equal it. -/
def memWf (m : Memory) : Bool := decide (m.Pairwise fun c d => c.1 < d.1)

def memRead : Memory → Nat → Option Byte
  | [], _ => none
  | (a, b) :: m, x => if x = a then some b else memRead m x

def memWrite : Memory → Nat → Byte → Memory
  | [], x, v => [(x, v)]
  | (a, b) :: m, x, v =>
    if x < a then (x, v) :: (a, b) :: m
    else if x = a then (x, v) :: m
    else (a, b) :: memWrite m x v

/-- One byte of a framebuffer: what has been written, else the initial contents, any value (R33, U4; log 7). -/
def fbByte (fb : Framebuffer) (a : Nat) : Byte := (memRead fb.cells a).getD (Config.fbInit fb.drawn a)

/-- `MemRead(FB, i, 1)` (R50). -/
def fbPixel (fb : Framebuffer) (i : Nat) : Pixel := joinBytes (fbByte fb (2 * i + 1)) (fbByte fb (2 * i))

/-- `MemWrite(FB, i, 1, v)` (R50). -/
def fbWritePixel (fb : Framebuffer) (i : Nat) (v : Pixel) : Framebuffer :=
  { fb with cells := memWrite (memWrite fb.cells (2 * i) (lowByte v)) (2 * i + 1) (highByte v) }

/-- Writes a list of pixels at a list of indices, in step. -/
def fbWriteAll : Framebuffer → List Nat → List Pixel → Framebuffer
  | fb, i :: is, v :: vs => fbWriteAll (fbWritePixel fb i v) is vs
  | fb, _, _ => fb

def otherBuffer : Buffer → Buffer
  | .zero => .one
  | .one => .zero

def bufferOf (s : State) : Buffer → Option Framebuffer
  | .zero => s.fb0
  | .one => s.fb1

def setBuffer (s : State) (k : Buffer) (fb : Framebuffer) : State :=
  match k with
  | .zero => { s with fb0 := some fb }
  | .one => { s with fb1 := some fb }

/-- `staging = 1 - front` in DOUBLE mode, `front` in SINGLE mode (R33). -/
def stagingOf (s : State) : Buffer :=
  match s.params.streamMode with
  | .single => s.front
  | .double => otherBuffer s.front

/-- A pixel of a view. While a FLUSH races, each byte is, by the free value `race_pick`, the old or the new one (R62). -/
def viewPixel (draw : Nat) (v : FbView) (i : Nat) : Pixel :=
  match v with
  | .stable fb => fbPixel fb i
  | .racing old new =>
    joinBytes (fbByte (if Config.racePick draw true then old else new) (2 * i + 1))
      (fbByte (if Config.racePick draw false then old else new) (2 * i))

/-- What the Streamer finds in a front buffer now: in SINGLE mode a FLUSH in flight races it (R62), in DOUBLE mode it
never does (R63). -/
def currentView (s : State) (fb : Framebuffer) : FbView :=
  match s.params.streamMode, s.flush with
  | .single, some job => .racing job.before fb
  | _, _ => .stable fb

/-- The view the Streamer fetches from: a free point between the frame's first pixel clock and now (R61). -/
def fetchView (s : State) (fb : Framebuffer) : FbView :=
  match s.earlierViews with
  | [] => currentView s fb
  | v :: vs =>
    ((currentView s fb :: v :: vs)[Config.readPoint s.draws % (vs.length + 2)]?).getD (currentView s fb)

/-! The environment (R8): a scripted answer where there is one, else a free value. -/

/-- `ask i2c_ack`. -/
def askAck (s : State) : Ack × State :=
  match s.acks with
  | r :: rs => (r, { s with acks := rs })
  | [] => (Config.i2cAck s.draws, { s with draws := s.draws + 1 })

/-- `ask pixif_present`. -/
def askPixIf (s : State) : Presence × State :=
  match s.pixIfAnswers with
  | r :: rs => (r, { s with pixIfAnswers := rs })
  | [] => (Config.pixIf s.draws, { s with draws := s.draws + 1 })

/-- `ask alloc(pool)`. -/
def askAlloc (pool : Pool) (s : State) : AllocAnswer × State :=
  match s.allocAnswers with
  | r :: rs => (r, { s with allocAnswers := rs })
  | [] => (Config.alloc s.draws pool, { s with draws := s.draws + 1 })

/-! The traces (R40) and the ends of an operation. -/

/-- `emit E`. -/
def emit (e : Event) (s : State) : State := { s with tr := s.tr ++ [e] }

/-- `scan_emit E`. -/
def scanEmit (e : ScanEvent) (s : State) : State := { s with scan := s.scan ++ [e] }

/-- `return r`: the operation gives its caller the result. -/
def returned (r : OpResult) (s : State) : State := { s with lastResult := some r }

/-- `raise e`: the operation ends at once, its result is the error, and everything written stays written (R240). -/
def raiseError (e : Err) (s : State) : State := { s with lastResult := some (.error e) }

/-- The end of an operation that answers `ok` or an error (R100). -/
def finish : State × Option Err → State
  | (s, none) => returned .ok s
  | (s, some e) => raiseError e s

/-- The numeric code of an error (R245). -/
def errCode : Err → Nat
  | .transportAbsent _ => 1
  | .alloc _ => 2
  | .invalidRegion _ => 3

/-- An operation that needs `link_configured` and has no result (R131). -/
def whenLinked (f : State → State) (s : State) : Answer :=
  if s.linkConfigured then .next (returned .void (f s)) else .refused .linkNotConfigured

end Sys2Proof.Machine
end

