-- ==== Sys2Proof/Machine/Expander.lean ====
section
/-! DEFINITION. ExpanderBus (40_expander_bus.md): the bus events, EXP_INIT, EXP_SET, EXP_GET. -/

namespace Sys2Proof.Machine

/-- What an acknowledged write does to the chip (R112). Only the expander's own address selects it (log 10). -/
def chipWrite (addr : BusAddr) (reg lo hi : Byte) (s : State) : State :=
  if addr = s.params.expAddr then
    if reg = Config.expRegOut then { s with expHwOut := joinBytes hi lo }
    else if reg = Config.expRegDir then { s with expHwDir := joinBytes hi lo }
    else s
  else s

/-- `I2cWrite(addr, reg, lo, hi, r)` (R112): one event, atomic; nothing changes on `nack`. -/
def i2cTransaction (addr : BusAddr) (reg lo hi : Byte) (s : State) : Ack × State :=
  let (r, s1) := askAck s
  let s2 := emit (.i2cWrite addr reg lo hi r) s1
  match r with
  | .ok => (r, chipWrite addr reg lo hi s2)
  | .nack => (r, s2)

/-- A 16-bit word to a register of the expander, low byte first (R53, R85). -/
def expanderWrite (reg : Byte) (w : Word16) (s : State) : Ack × State :=
  i2cTransaction s.params.expAddr reg (lowByte w) (highByte w) s

/-- `I2cProbe(EXP_ADDR, r)` (R111). -/
def probe (s : State) : Ack × State :=
  let (r, s1) := askAck s
  (r, emit (.i2cProbe s.params.expAddr r) s1)

/-- The direction word of EXP_INIT: the default with both pins outputs (R110). -/
def initDirWord (p : Params) : Word16 := insertBit (insertBit p.expDirDefault p.csBit false) p.rstBit false

/-- The output word of EXP_INIT: the default with both pins idle high (R110). -/
def initOutWord (p : Params) : Word16 := insertBit (insertBit p.expOutDefault p.csBit true) p.rstBit true

/-- EXP_INIT (R110): probe, direction write, output write, left at the first `nack`. -/
def expInit (s : State) : State × Option Err :=
  match probe s with
  | (.nack, s1) => (s1, some (.transportAbsent .expInit))
  | (.ok, s1) =>
    match expanderWrite Config.expRegDir (initDirWord s.params) s1 with
    | (.nack, s2) => (s2, some (.transportAbsent .expInit))
    | (.ok, s2) =>
      match expanderWrite Config.expRegOut (initOutWord s.params) s2 with
      | (.nack, s3) => (s3, some (.transportAbsent .expInit))
      | (.ok, s3) => ({ s3 with expMirror := initOutWord s.params, expInitialized := true }, none)

/-- EXP_SET (R115): mirror first, then the whole mirror to register 0x02; nothing at all on an uninitialised bus
(R116); a `nack` is swallowed (R117). -/
def expSet (pin : Pin) (n : Level) (s : State) : State :=
  if s.expInitialized then
    let m := insertBit s.expMirror (pinBit s.params pin) n
    (expanderWrite Config.expRegOut m { s with expMirror := m }).2
  else s

/-- EXP_GET (R118): the bit of the mirror. -/
def expGet (pin : Pin) (s : State) : Level := s.expMirror.getLsbD (pinBit s.params pin).val

/-! Meanings. -/

/-- EXP_INIT (R110). -/
def execExpInit (s : State) : Answer := .next (finish (expInit s))

/-- EXP_SET (R115 to R117). -/
def execExpSet (pin : Pin) (n : Level) (s : State) : Answer := .next (returned .void (expSet pin n s))

/-- EXP_GET (R118). -/
def execExpGet (pin : Pin) (s : State) : Answer := .next (returned (.level (expGet pin s)) s)

/-- A bus write asked for as such (R85, R112): the transaction, whatever the answer. A W flag that is not a write's
is an operand outside its set (R101; log 11). Any word is written, so such a request can change the fourteen bits that
R87, R101 and U14 call never changed by the block, and leave chip and mirror different; DESIGN CHOICE, log 10. -/
def busWriteRow (a : BusAddr) (w : BitVec 1) (r l h : Byte) (s : State) : Answer :=
  if w = Config.writeFlag then .next (returned .void (i2cTransaction a r l h s).2) else .refused .badOperand

/-- I2C_WRITE (R85, R112). -/
def execI2cWrite (a : BusAddr) (w : BitVec 1) (r l h : Byte) (s : State) : Answer := busWriteRow a w r l h s

/-- I2C_WRITE_DIR (R112): register 0x06. -/
def execI2cWriteDir (a : BusAddr) (w : BitVec 1) (l h : Byte) (s : State) : Answer :=
  busWriteRow a w Config.expRegDir l h s

/-- I2C_WRITE_OUT (R112): register 0x02. -/
def execI2cWriteOut (a : BusAddr) (w : BitVec 1) (l h : Byte) (s : State) : Answer :=
  busWriteRow a w Config.expRegOut l h s

/-- CS(n) = EXP_SET(CS, n) (R103). -/
def execCs (n : Level) (s : State) : Answer := .next (returned .void (expSet .cs n s))

/-- RST(n) = EXP_SET(RST, n) (R103). -/
def execRst (n : Level) (s : State) : Answer := .next (returned .void (expSet .rst n s))

end Sys2Proof.Machine
end

