-- ==== Sys2Proof/Machine/Link.lean ====
section
/-! DEFINITION. BitBangLink (41_bitbang_link.md): LINK_INIT, the primitive steps, XFER, SEND_DATA, SEND_COMMAND, and
the serial formats of 30_encoding.md as requests. -/

namespace Sys2Proof.Machine

/-- LINE_SET (R133): the latch, then the event. -/
def lineSet (l : Line) (n : Level) (s : State) : State :=
  match l with
  | .clk => emit (.line .clk n) { s with clk := .driven n }
  | .sda => emit (.line .sda n) { s with sda := .driven n }
  | .bl => emit (.line .bl n) { s with bl := .driven n }

/-- DELAY_US (R135): the event is the whole effect. -/
def delayUs (n : Nat) (s : State) : State := emit (.delayUs n) s

/-- DELAY_MS (R135). -/
def delayMs (n : Nat) (s : State) : State := emit (.delayMs n) s

/-- LINK_INIT (R130): three pins become outputs, then each is driven low. -/
def linkInit (s : State) : State :=
  let s1 := emit (.pinCfg .bl) (emit (.pinCfg .sda) (emit (.pinCfg .clk) s))
  let s2 := lineSet .bl false (lineSet .sda false (lineSet .clk false s1))
  { s2 with linkConfigured := true }

/-- One bit of XFER's loop (R140): data, delay, clock up, delay, clock down. -/
def clockBit (b : Level) (s : State) : State :=
  let s1 := delayUs s.params.tBitUs (lineSet .sda b s)
  let s2 := delayUs s1.params.tBitUs (lineSet .clk true s1)
  lineSet .clk false s2

/-- The bits of a frame in the order they are sent: bit 8 first, bit 0 last (R80). -/
def frameBits (f : Frame9) : List Level := [8, 7, 6, 5, 4, 3, 2, 1, 0].map fun i => f.getLsbD i

/-- `for i = 8 downto 0` (R140). -/
def shiftOut : List Level → State → State
  | [], s => s
  | b :: bs, s => shiftOut bs (clockBit b s)

/-- XFER (R140): one serial frame in one chip-select cycle. -/
def xfer (m : Level) (p : Byte) (s : State) : State :=
  let s1 := expSet .cs false s
  let s2 := delayUs s1.params.tCsSettleUs s1
  let s3 := shiftOut (frameBits (frame9 m p)) s2
  let s4 := expSet .cs true s3
  delayUs s4.params.tCsReleaseUs s4

/-- SEND_DATA (R144). -/
def sendData (b : Byte) (s : State) : State := xfer Config.modeData b s

/-- SEND_COMMAND (R146): the high byte in a command frame, then the low byte in a data-shaped frame. -/
def sendCommand (c : Word16) (s : State) : State :=
  xfer Config.modeData (lowByte c) (xfer Config.modeCmd (highByte c) s)

/-- SEND_DATA of each byte, in order (R148, R164). -/
def sendAll : List Byte → State → State
  | [], s => s
  | b :: bs, s => sendAll bs (sendData b s)

/-- SEND_COMMAND, then SEND_DATA of each parameter (R148). -/
def writeReg (c : Word16) (ps : List Byte) (s : State) : State := sendAll ps (sendCommand c s)

/-! Meanings. -/

/-- LINK_INIT (R130). -/
def execLinkInit (s : State) : Answer := .next (returned .void (linkInit s))

/-- SEND_DATA (R144). -/
def execSendData (b : Byte) (s : State) : Answer := whenLinked (sendData b) s

/-- SEND_COMMAND (R146). -/
def execSendCommand (c : Word16) (s : State) : Answer := whenLinked (sendCommand c) s

/-- XFER (R140), accepted from the host although R100 calls it an internal step; DESIGN CHOICE, log 31. -/
def execXfer (m : Level) (p : Byte) (s : State) : Answer := whenLinked (xfer m p) s

/-- LINE_SET (R133), accepted from the host although R100 calls it an internal step; DESIGN CHOICE, log 31. -/
def execLineSet (l : Line) (n : Level) (s : State) : Answer := whenLinked (lineSet l n) s

/-- DELAY_US (R135); a step of BitBangLink, so it needs `link_configured` (R131; logs 13 and 31). -/
def execDelayUs (n : Nat) (s : State) : Answer := whenLinked (delayUs n) s

/-- DELAY_MS (R135; logs 13 and 31). -/
def execDelayMs (n : Nat) (s : State) : Answer := whenLinked (delayMs n) s

/-- FRAME_CMD (R81): the frame of mode 0, sent as R84 says (log 9). -/
def execFrameCmd (p : Byte) (s : State) : Answer := whenLinked (xfer Config.modeCmd p) s

/-- FRAME_DATA (R81): the frame of mode 1 (log 9). -/
def execFrameData (p : Byte) (s : State) : Answer := whenLinked (xfer Config.modeData p) s

/-- SPLIT_CMD (R82): frame A, then frame B, each in its own chip-select cycle (log 9). -/
def execSplitCmd (h l : Byte) (s : State) : Answer :=
  whenLinked (fun t => xfer Config.modeData l (xfer Config.modeCmd h t)) s

/-- CLK(n) = LINE_SET(CLK, n) (R103). A host that issues it can leave the clock high between requests, where R17 says it
idles low; DESIGN CHOICE, log 31. -/
def execClk (n : Level) (s : State) : Answer := whenLinked (lineSet .clk n) s

/-- SDA(n) = LINE_SET(SDA, n) (R103; log 31). -/
def execSda (n : Level) (s : State) : Answer := whenLinked (lineSet .sda n) s

/-- BL(n) = LINE_SET(BL, n) (R103; log 31). -/
def execBl (n : Level) (s : State) : Answer := whenLinked (lineSet .bl n) s

/-- WRITE_REG(c, ps) = SEND_COMMAND(c), then SEND_DATA(p) for each p in ps (R103). -/
def execWriteReg (c : Word16) (ps : List Byte) (s : State) : Answer := whenLinked (writeReg c ps) s

end Sys2Proof.Machine
end

