-- ==== Sys2Proof/Machine/Programmer.lean ====
section
/-! DEFINITION. PanelProgrammer (42_panel_programmer.md): the reset pulse and the replay of the table. -/

namespace Sys2Proof.Machine

/-- PANEL_RESET (R160): assert, hold, release; no delay after. -/
def panelReset (s : State) : State :=
  let s1 := expSet .rst false s
  expSet .rst true (delayMs s1.params.tRstHoldMs s1)

/-- REGOP_WRITE (R164): `op` does not change the replay. -/
def regopWrite (_op : PageOp) (code : Word16) (payload : List Byte) (s : State) : State :=
  sendAll payload (sendCommand code s)

/-- REGOP_DELAY (R166). -/
def regopDelay (ms : Nat) (s : State) : State := delayMs ms s

/-- The dispatch of PROG_RUN on the entry kind (R170). -/
def replayEntry (e : RegisterOp) (s : State) : State :=
  match e with
  | .write op code payload => regopWrite op code payload s
  | .delay ms => regopDelay ms s

/-- `STATE_NAME[2..9]`, the names reached at the eight milestones (R172). -/
def milestoneNames : List PpState :=
  [.page1Programmed, .page2Programmed, .page3Programmed, .backToPage0, .pixelFormatSet, .invertedOn, .awake,
    .displaying]

/-- `for k = 1 to 8: if pp_index = MILESTONES[k] then pp_state <- STATE_NAME[k+1]` (R170). -/
def milestoneState (idx : Nat) : List Nat → List PpState → PpState → PpState
  | m :: ms, n :: ns, cur => milestoneState idx ms ns (if idx = m then n else cur)
  | _, _, cur => cur

/-- The end of one turn of PROG_RUN's loop (R170). -/
def advanceIndex (s : State) : State :=
  { s with ppState := milestoneState s.ppIndex s.params.milestones milestoneNames s.ppState, ppIndex := s.ppIndex + 1 }

/-- The loop of PROG_RUN over the entries that are left (R170). -/
def replayTable : List RegisterOp → State → State
  | [], s => s
  | e :: es, s => replayTable es (advanceIndex (replayEntry e s))

/-- PROG_RUN (R170). -/
def progRun (s : State) : State :=
  let s1 := panelReset { s with ppDone := false, ppIndex := 0, ppState := .reset }
  let s2 := replayTable s1.params.table s1
  { s2 with ppDone := true }

/-! Meanings. -/

/-- PANEL_RESET (R160). -/
def execPanelReset (s : State) : Answer := whenLinked panelReset s

/-- PROG_RUN (R170): "void success". -/
def execProgRun (s : State) : Answer := whenLinked progRun s

/-- REGOP_WRITE (R164; log 31). -/
def execRegopWrite (op : PageOp) (code : Word16) (payload : List Byte) (s : State) : Answer :=
  whenLinked (regopWrite op code payload) s

/-- REGOP_DELAY (R166; log 31). -/
def execRegopDelay (ms : Nat) (s : State) : Answer := whenLinked (regopDelay ms) s

/-- REGOP.WRITE (R92): a WRITE entry replays by R164 (log 12). -/
def execEntryWrite (op : PageOp) (code : Word16) (payload : List Byte) (s : State) : Answer :=
  whenLinked (replayEntry (.write op code payload)) s

/-- REGOP.DELAY (R92): a DELAY entry replays by R166 (log 12). -/
def execEntryDelay (ms : Nat) (s : State) : Answer := whenLinked (replayEntry (.delay ms)) s

end Sys2Proof.Machine
end

