-- ==== Sys2Proof/Machine/Streamer.lean ====
section
/-! DEFINITION. TimingStreamer (43_timing_streamer.md): TS_CONFIGURE, TS_START, TS_TICK, TS_NOTIFY, and the mapping of
a pixel-bus event to the pins (R196). -/

namespace Sys2Proof.Machine

/-- What TS_CONFIGURE refuses before it touches anything (R180). -/
def tsConfigureRefusal (st : TsState) (t : Timing) (d : DataPins) (c : CtrlPins) : Option Refusal :=
  if st ≠ .unconfigured then some .alreadyConfigured
  else if !configWellFormed t d c then some .badConfig
  else none

/-- TS_CONFIGURE past its refusals (R180). -/
def tsConfigure (t : Timing) (d : DataPins) (c : CtrlPins) (s : State) : State × Option Err :=
  let (r, s1) := askPixIf s
  let s2 := emit (.pixIfProbe r) s1
  match r with
  | .absent => (s2, some (.transportAbsent .tsConfigure))
  | .present =>
    ({ s2 with tsCfg := { timing := t, dataPins := d, ctrlPins := c }, tsState := .configured }, none)

/-- `FB[k] <- ask fb_init; fb_pool <- pool` (R185): a fresh draw fixes the contents. -/
def placeBuffer (k : Buffer) (pool : Pool) (s : State) : State :=
  setBuffer { s with fbPool := pool, draws := s.draws + 1 } k { drawn := s.draws, cells := [] }

/-- One buffer from the primary pool, else from the secondary (R185); `false` when both fail. -/
def allocBuffer (k : Buffer) (s : State) : State × Bool :=
  let (r, s1) := askAlloc .primary s
  let s2 := emit (.alloc .primary r) s1
  match r with
  | .ok => (placeBuffer k .primary s2, true)
  | .fail =>
    let (r', s3) := askAlloc .secondary s2
    let s4 := emit (.alloc .secondary r') s3
    match r' with
    | .ok => (placeBuffer k .secondary s4, true)
    | .fail => (s4, false)

/-- E_ALLOC releases what TS_START allocated: no buffer exists (R185). -/
def releaseBuffers (s : State) : State := { s with fb0 := none, fb1 := none }

/-- The end of TS_START: the scan starts at the frame's first pixel clock (R185). -/
def startScan (s : State) : State :=
  { s with front := .zero, hcnt := 0, vcnt := 0, frameNo := 0, flipPending := false, earlierViews := [],
           tsState := .running }

/-- What TS_START refuses before it touches anything: any state but CONFIGURED (R185), and, once a BRING_UP has failed,
every start: "after a fatal bring-up error the Streamer must not start" (R287, R220). The refusal's name and its place
after R185's are DEDUCED, log 32. After a direct TS_START that answered E_ALLOC, with no BRING_UP failed, a second one is
not refused, although R185 says of that error that no `Pix` is ever emitted; DESIGN CHOICE, log 34. -/
def tsStartRefusal (s : State) : Option Refusal :=
  if s.tsState ≠ .configured then some .notConfiguredOrAlreadyRunning
  else if s.bringupError.isSome then some .bringUpFailed
  else none

/-- TS_START past its refusals (R185): one buffer in SINGLE mode, two in DOUBLE mode. -/
def tsStart (s : State) : State × Option Err :=
  match allocBuffer .zero s with
  | (s1, false) => (releaseBuffers s1, some (.alloc .tsStart))
  | (s1, true) =>
    match s1.params.streamMode with
    | .single => (startScan s1, none)
    | .double =>
      match allocBuffer .one s1 with
      | (s2, false) => (releaseBuffers s2, some (.alloc .tsStart))
      | (s2, true) => (startScan s2, none)

/-- The first act of a tick on the video-frame boundary: a pending flip, the frame count, and a new read window
(R192, R207, R61). -/
def frameBoundary (s : State) : State :=
  if s.hcnt = 0 ∧ s.vcnt = 0 then
    let s1 :=
      if s.params.streamMode = .double ∧ s.flipPending = true then
        scanEmit .flip { s with front := otherBuffer s.front, flipPending := false }
      else s
    { s1 with frameNo := s1.frameNo + 1, earlierViews := [] }
  else s

/-- The data lines of a tick: the pixel inside the active window (R194), any value outside (R195). None when the
front buffer does not exist. -/
def tickData (s : State) : Option Pixel :=
  match activePixel s.tsCfg.timing s.hcnt s.vcnt with
  | some (x, y) =>
    (bufferOf s s.front).map fun fb => viewPixel s.draws (fetchView s fb) (pixelIndex x y)
  | none => some (Config.blankData s.draws)

/-- The scan counters one pixel clock on (R192). -/
def scanAdvance (s : State) : State :=
  if s.hcnt + 1 = htotal s.tsCfg.timing then
    { s with hcnt := 0, vcnt := if s.vcnt + 1 = vtotal s.tsCfg.timing then 0 else s.vcnt + 1 }
  else { s with hcnt := s.hcnt + 1 }

/-- The event of a tick (R192, R193). -/
def tickPix (s : State) (d : Pixel) : ScanEvent :=
  .pix (hsyncLevel s.tsCfg.timing s.hcnt) (vsyncLevel s.tsCfg.timing s.vcnt)
    (deLevel s.tsCfg.timing s.hcnt s.vcnt) d

/-- TS_TICK while RUNNING (R192). -/
def tsTick (s : State) : Answer :=
  let s1 := frameBoundary s
  match tickData s1 with
  | none => .fault .noFramebuffer
  | some d => .next (scanAdvance (scanEmit (tickPix s1 d) { s1 with draws := s1.draws + 1 }))

/-- What TS_NOTIFY refuses (R205). -/
def tsNotifyRefusal (r : Rect) (s : State) : Option Refusal :=
  if s.tsState ≠ .running then some .notRunning
  else if !rectValid r then some .badRect
  else match s.params.streamMode with
    | .single => none
    | .double => if s.flipPending then some .flipAlreadyPending else none

/-- TS_NOTIFY past its refusals (R205): nothing in SINGLE mode (R206), a flip request in DOUBLE mode (R207). -/
def tsNotify (r : Rect) (s : State) : State :=
  match s.params.streamMode with
  | .single => s
  | .double => { s with flipRect := r, flipPending := true }

/-! The pixel bus (R196). -/

/-- What a pin carries during one pixel clock. -/
inductive PinSignal
  /-- A level, held for the whole pixel clock. -/
  | level (n : Level)
  /-- One full cycle of the pixel clock. -/
  | clockCycle
  /-- A pin that is not one of the twenty. -/
  | notDriven
deriving DecidableEq, Repr

/-- The level of a data pin: bit `i` of the pixel goes to the pin `data_pins[i]`. -/
def dataPinSignal (pin : Byte) (d : Pixel) : List Byte → Nat → PinSignal
  | [], _ => .notDriven
  | q :: qs, i => if q = pin then .level (d.getLsbD i) else dataPinSignal pin d qs (i + 1)

/-- The signal on a pin for `Pix(hs, vs, de, d)` (R196). -/
def pinSignal (c : TsCfg) (hs vs de : Level) (d : Pixel) (pin : Byte) : PinSignal :=
  if pin = c.ctrlPins.hsync then .level hs
  else if pin = c.ctrlPins.vsync then .level vs
  else if pin = c.ctrlPins.de then .level de
  else if pin = c.ctrlPins.pclk then .clockCycle
  else dataPinSignal pin d c.dataPins.toList 0

/-! Meanings. -/

/-- TS_CONFIGURE (R180). After a failed BRING_UP it runs as well: R287 forbids the start, not the configuration; DEDUCED,
log 32. -/
def execTsConfigure (t : Timing) (d : DataPins) (c : CtrlPins) (s : State) : Answer :=
  match tsConfigureRefusal s.tsState t d c with
  | some r => .refused r
  | none => .next (finish (tsConfigure t d c s))

/-- TS_START (R185, R287). -/
def execTsStart (s : State) : Answer :=
  match tsStartRefusal s with
  | some why => .refused why
  | none => .next (finish (tsStart s))

/-- TS_TICK (R192): enabled exactly when RUNNING (logs 20 and 31). -/
def execTsTick (s : State) : Answer :=
  if s.tsState = .running then tsTick s else .refused .tickNotEnabled

/-- TS_NOTIFY (R205). -/
def execTsNotify (r : Rect) (s : State) : Answer :=
  match tsNotifyRefusal r s with
  | some why => .refused why
  | none => .next (returned .void (tsNotify r s))

end Sys2Proof.Machine
end

