-- ==== Sys2Proof/Machine/Orchestrator.lean ====
section
/-! DEFINITION. PanelBringup (44_orchestrator.md): BRING_UP and its return, BACKLIGHT_ON, FLUSH and its completion. -/

namespace Sys2Proof.Machine

/-- BACKLIGHT_ON: `BL(BL_ON)` (R226). -/
def backlightOn (s : State) : State := lineSet .bl Config.blOn s

/-- `FAIL(e)` of BRING_UP: the error is recorded and reported loudly (R220, R247). -/
def failBringUp (e : Err) (s : State) : State := raiseError e (emit (.diag e) { s with bringupError := some e })

/-- Stages 2 to 4 of BRING_UP, which cannot fail (R220). -/
def bringUpPanel (s : State) : State := backlightOn (progRun (linkInit s))

/-- Stages 5a and 5b of BRING_UP (R220). Where they succeed the Streamer runs and the return is still to come: it is
the Sequencer's next move, so that ticks can fall before it (R256; log 5). -/
def bringUpStream (s : State) : State :=
  match tsConfigure (timingOf s.params) s.params.dataPins s.params.ctrlPins s with
  | (s1, some e) => failBringUp e s1
  | (s1, none) =>
    match tsStart s1 with
    | (s2, some e) => failBringUp e s2
    | (s2, none) => { s2 with bringUpReturning := true, lastResult := none }

/-- BRING_UP from stage 1 on, where stage 5a refuses nothing (R220). -/
def bringUp (s : State) : State :=
  match expInit s with
  | (s1, some e) => failBringUp e s1
  | (s1, none) => bringUpStream (bringUpPanel s1)

/-- `panel_ready <- true; return ready`: the end of BRING_UP (R220). -/
def returnReady (s : State) : State := returned .ready { s with panelReady := true, bringUpReturning := false }

/-- The Sequencer goes on with its BRING_UP, which returns. With none under way nothing happens (log 27). -/
def bringUpContinue (s : State) : Answer := if s.bringUpReturning then .next (returnReady s) else .next s

/-- Where the buffer a FLUSH writes is the buffer the Streamer reads, the view the write ends stays in the read window
(R61). -/
def keepView (fb : Framebuffer) (s : State) : State :=
  match s.params.streamMode with
  | .single => { s with earlierViews := currentView s fb :: s.earlierViews }
  | .double => s

/-- The start of a FLUSH: in flight, its pixels written to the staging buffer, its caller waiting (R230). TS_NOTIFY is
the Writer's next move, so that a frame boundary can fall before it (R198; log 5). -/
def startFlush (r : Rect) (ps : List Pixel) (fb : Framebuffer) (s : State) : State :=
  let s1 := keepView fb s
  setBuffer { s1 with flush := some { rect := r, before := fb, phase := .notify }, lastResult := none } (stagingOf s1)
    (fbWriteAll fb (rectIndices r) ps)

/-- The completion of a FLUSH (R231). -/
def endFlush (s : State) : State := returned .ok { s with flush := none }

/-- The copy-back of DOUBLE mode: the rectangle from the new front buffer to the new staging buffer (R207, R230). -/
def copyBack (r : Rect) (front staging : Framebuffer) : Framebuffer :=
  fbWriteAll staging (rectIndices r) ((rectIndices r).map (fbPixel front))

/-- The FLUSH in flight has come to this point. -/
def flushAt (job : FlushJob) (ph : FlushPhase) (s : State) : State := { s with flush := some { job with phase := ph } }

/-- What follows TS_NOTIFY in a FLUSH: completion in SINGLE mode, the wait for the flip in DOUBLE mode (R230). -/
def afterNotify : StreamMode → FlushPhase
  | .single => .complete
  | .double => .flip

/-- FLUSH's call of TS_NOTIFY (R230, R205). -/
def flushNotify (job : FlushJob) (s : State) : Answer :=
  match tsNotifyRefusal job.rect s with
  | some why => .refused why
  | none => .next (flushAt job (afterNotify s.params.streamMode) (tsNotify job.rect s))

/-- FLUSH's wait for the flip, and the copy-back after it (R230, R208). -/
def flushFlip (job : FlushJob) (s : State) : Answer :=
  if s.flipPending then .next s
  else
    match bufferOf s s.front, bufferOf s (stagingOf s) with
    | some f, some g => .next (flushAt job .complete (setBuffer s (stagingOf s) (copyBack job.rect f g)))
    | _, _ => .fault .noFramebuffer

/-- The completion of a FLUSH; in SINGLE mode the view it ends stays in the read window (R231, R61). -/
def flushComplete (s : State) : Answer :=
  match s.params.streamMode with
  | .single =>
    match bufferOf s s.front with
    | none => .fault .noFramebuffer
    | some fb => .next (endFlush (keepView fb s))
  | .double => .next (endFlush s)

/-- The Writer goes on with its FLUSH (R230). With no FLUSH in flight nothing happens (log 27). -/
def flushContinue (s : State) : Answer :=
  match s.flush with
  | none => .next s
  | some job =>
    match job.phase with
    | .notify => flushNotify job s
    | .flip => flushFlip job s
    | .complete => flushComplete s

/-! Meanings. -/

/-- BACKLIGHT_ON (R226). -/
def execBacklightOn (s : State) : Answer := whenLinked backlightOn s

/-- BRING_UP (R220, R223), up to its return. Stages 1 to 4 change nothing that TS_CONFIGURE's refusals read, so those are looked up
first; they are reached only if EXP_INIT succeeds. -/
def execBringUp (s : State) : Answer :=
  if s.panelReady || s.bringUpReturning || s.bringupError.isSome then .refused .bringUpOnce
  else
    match tsConfigureRefusal s.tsState (timingOf s.params) s.params.dataPins s.params.ctrlPins with
    | none => .next (bringUp s)
    | some r =>
      match expInit s with
      | (s1, some e) => .next (failBringUp e s1)
      | (_, none) => .refused r

/-- FLUSH (R230), up to its call of TS_NOTIFY: the checks in the order of R248, then the writes. What TS_NOTIFY would
refuse is looked up before anything is written (log 24). -/
def execFlush (r : Rect) (ps : List Pixel) (s : State) : Answer :=
  if !s.panelReady then .refused .noHandle
  else if flushInFlight s then .refused .concurrentFlush
  else if !rectValid r then .next (raiseError (.invalidRegion r) s)
  else if ps.length ≠ rectWidth r * rectHeight r then .refused .badLength
  else
    match bufferOf s (stagingOf s) with
    | none => .fault .noFramebuffer
    | some fb =>
      match tsNotifyRefusal r s with
      | some why => .refused why
      | none => .next (startFlush r ps fb s)

end Sys2Proof.Machine
end

