-- ==== Sys2Proof/Machine/Schedule.lean ====
section
/-! DEFINITION. Who moves in a step, and the host's queue of requests (60_exceptions.md R256, 70 R298; log 4). -/

namespace Sys2Proof.Machine

/-- Whose turn it is: the next of `turns`; where that list ends, a free value lets the Streamer move, and otherwise the
host's side does, which ends the BRING_UP under way or goes on with the FLUSH in flight before it issues another
request. -/
def nextTurn (s : State) : Turn × State :=
  match s.turns with
  | t :: ts => (t, { s with turns := ts })
  | [] =>
    (if Config.streamerTurn s.draws then .streamer else if s.bringUpReturning then .sequencer
      else if flushInFlight s then .writer else .request, { s with draws := s.draws + 1 })

/-- The Streamer's move: a tick while RUNNING (R198), else nothing (log 27). -/
def streamerMove (s : State) : Answer := if s.tsState = .running then tsTick s else .next s

/-- The operation is a FLUSH. -/
def isFlush : Instr → Bool
  | .flush _ _ => true
  | .frameCmd _ | .frameData _ | .splitCmd _ _ | .entryWrite _ _ _ | .entryDelay _ | .sendData _ | .sendCommand _
  | .panelReset | .progRun | .backlightOn | .xfer _ _ | .lineSet _ _ | .delayUs _ | .delayMs _
  | .regopWrite _ _ _ | .regopDelay _ | .clk _ | .sda _ | .bl _ | .writeReg _ _ | .expInit | .expSet _ _ | .expGet _
  | .linkInit | .tsConfigure _ _ _ | .tsStart | .bringUp | .tsNotify _ | .tsTick | .cs _ | .rst _ | .i2cWrite _ _ _ _ _
  | .i2cWriteDir _ _ _ _ | .i2cWriteOut _ _ _ _ => false

/-- The host may issue this operation now. Operations run one at a time (R248, R256), so it waits while a FLUSH is in
flight; only a second FLUSH does not wait, because R233 refuses it. DESIGN CHOICE, log 33: R298 lets the host call the
other operations directly and says nothing of a FLUSH in flight. -/
def mayIssue (i : Instr) (s : State) : Bool := isFlush i || !flushInFlight s

/-- The host's next request, taken from the queue and decoded, if the host may issue it. While BRING_UP has not returned
the host issues none: the Sequencer runs alone, to completion (R256, R154). -/
def fetchRequest (s : State) : Option (Except DecodeError Instr × State) :=
  if s.bringUpReturning then none
  else
    match s.requests with
    | [] => none
    | q :: qs =>
      match decode q with
      | .ok i => if mayIssue i s then some (.ok i, { s with requests := qs }) else none
      | .error e => some (.error e, { s with requests := qs })

/-- The request put first in the queue, and the turn given to the host. -/
def placeRequest (q : Request) (s : State) : State :=
  { s with requests := q :: s.requests, turns := .request :: s.turns }

end Sys2Proof.Machine
end

