-- ==== Sys2Proof/Machine/Dispatch.lean ====
section
/-! DEFINITION. The dispatch: one arm for each constructor of Instr, each one direct call of its meaning. -/

namespace Sys2Proof.Machine

def exec (i : Instr) (s : State) : Host.Outcome State Fault Refusal :=
  match i with
  | .frameCmd p => Sys2Proof.Machine.execFrameCmd p s
  | .frameData p => Sys2Proof.Machine.execFrameData p s
  | .splitCmd h l => Sys2Proof.Machine.execSplitCmd h l s
  | .i2cWrite a w r l h => Sys2Proof.Machine.execI2cWrite a w r l h s
  | .i2cWriteDir a w l h => Sys2Proof.Machine.execI2cWriteDir a w l h s
  | .i2cWriteOut a w l h => Sys2Proof.Machine.execI2cWriteOut a w l h s
  | .entryWrite op code payload => Sys2Proof.Machine.execEntryWrite op code payload s
  | .entryDelay ms => Sys2Proof.Machine.execEntryDelay ms s
  | .expInit => Sys2Proof.Machine.execExpInit s
  | .expSet pin n => Sys2Proof.Machine.execExpSet pin n s
  | .expGet pin => Sys2Proof.Machine.execExpGet pin s
  | .linkInit => Sys2Proof.Machine.execLinkInit s
  | .sendData b => Sys2Proof.Machine.execSendData b s
  | .sendCommand c => Sys2Proof.Machine.execSendCommand c s
  | .panelReset => Sys2Proof.Machine.execPanelReset s
  | .progRun => Sys2Proof.Machine.execProgRun s
  | .tsConfigure t d c => Sys2Proof.Machine.execTsConfigure t d c s
  | .tsStart => Sys2Proof.Machine.execTsStart s
  | .tsNotify r => Sys2Proof.Machine.execTsNotify r s
  | .bringUp => Sys2Proof.Machine.execBringUp s
  | .backlightOn => Sys2Proof.Machine.execBacklightOn s
  | .flush r ps => Sys2Proof.Machine.execFlush r ps s
  | .xfer m p => Sys2Proof.Machine.execXfer m p s
  | .lineSet l n => Sys2Proof.Machine.execLineSet l n s
  | .delayUs n => Sys2Proof.Machine.execDelayUs n s
  | .delayMs n => Sys2Proof.Machine.execDelayMs n s
  | .regopWrite op code payload => Sys2Proof.Machine.execRegopWrite op code payload s
  | .regopDelay ms => Sys2Proof.Machine.execRegopDelay ms s
  | .tsTick => Sys2Proof.Machine.execTsTick s
  | .cs n => Sys2Proof.Machine.execCs n s
  | .rst n => Sys2Proof.Machine.execRst n s
  | .clk n => Sys2Proof.Machine.execClk n s
  | .sda n => Sys2Proof.Machine.execSda n s
  | .bl n => Sys2Proof.Machine.execBl n s
  | .writeReg c ps => Sys2Proof.Machine.execWriteReg c ps s

end Sys2Proof.Machine
end

