-- ==== Sys2Proof/Machine/Step.lean ====
section
/-! DEFINITION. One step of the machine: the agent whose turn it is moves once (60_exceptions.md R256; log 4). -/

namespace Sys2Proof.Machine

/-- The host's move: it issues its next request, which is decoded and executed, or rejected by the decoder's reason
(R101); with nothing it can issue, nothing happens (logs 27 and 33). -/
def requestMove (s : State) : Answer :=
  match fetchRequest s with
  | none => .next s
  | some (.ok i, t) => exec i t
  | some (.error e, _) => .refused (.badRequest e)

def step (s : State) : Host.Outcome State Fault Refusal :=
  match nextTurn s with
  | (.streamer, t) => streamerMove t
  | (.sequencer, t) => bringUpContinue t
  | (.writer, t) => flushContinue t
  | (.request, t) => requestMove t

/-- The instruction whose bits are `w` (numbered as the opcode table numbers them) issued as the host's next request,
and the next turn the host's, so that the very next step runs it. -/
def State.withFetchWord (s : State) (nbits w : Nat) : State := placeRequest (tableRequest nbits w) s

end Sys2Proof.Machine
end

