-- ==== Sys2Proof/Machine/Receiver.lean ====
section
/-! DEFINITION. What a control trace delivers: the receiver view `rx` (41_bitbang_link.md R152), which is no state of
the block and which no operation reads. The sampling edge is the spec's passage G2 (log 18). -/

namespace Sys2Proof.Machine

/-- What the panel receives in one chip-select cycle. -/
inductive Received
  | frame (mode : Level) (payload : Byte)
  | malformed (length : Nat)
deriving DecidableEq, Repr

/-- The variables of R152's pass: the chip's two registers (from which `cs` follows, R14), `clk`, `sda`, the
accumulator and what has been received. A line that has had no event yet has no level. -/
structure Receiver where
  out : Word16
  dir : Word16
  clk : Option Level
  sda : Option Level
  acc : List Level
  frames : List Received
deriving DecidableEq, Repr

/-- Before the first event: the chip at its boot defaults (R14, R45). R152 gives the accumulator no first contents, and
`CS_LINE` can be low before any `1 -> 0` empties it (U22): a free value; DESIGN CHOICE, log 35. -/
def receiverStart (p : Params) : Receiver where
  out := p.expOutDefault
  dir := p.expDirDefault
  clk := none
  sda := none
  acc := Config.receiverBits
  frames := []

/-- `cs`, the level of `CS_LINE` (R14). -/
def receiverCs (p : Params) (r : Receiver) : Option Level := expanderLine r.dir r.out p.csBit

/-- Bits, most significant first, as a number. -/
def bitsValue (bs : List Level) : Nat := bs.foldl (fun n b => 2 * n + b.toNat) 0

/-- The end of a chip-select cycle: nine bits are a frame, any other count is malformed (R152). -/
def delivered : List Level → Received
  | m :: bs => if bs.length = 8 then .frame m (BitVec.ofNat 8 (bitsValue bs)) else .malformed (bs.length + 1)
  | [] => .malformed 0

/-- A change of the chip's registers, and what `CS_LINE` does by it (R152). -/
def receiverBus (p : Params) (r : Receiver) (out dir : Word16) : Receiver :=
  let r' := { r with out := out, dir := dir }
  match receiverCs p r, receiverCs p r' with
  | some true, some false => { r' with acc := [] }
  | some false, some true => { r' with frames := r'.frames ++ [delivered r'.acc] }
  | _, _ => r'

/-- One event of the trace (R152). -/
def receive (p : Params) (r : Receiver) : Event → Receiver
  | .i2cWrite addr reg lo hi .ok =>
    if addr = p.expAddr then
      if reg = Config.expRegOut then receiverBus p r (joinBytes hi lo) r.dir
      else if reg = Config.expRegDir then receiverBus p r r.out (joinBytes hi lo)
      else r
    else r
  | .line .sda b => { r with sda := some b }
  | .line .clk true =>
    if r.clk = some false ∧ receiverCs p r = some false then
      { r with clk := some true, acc := r.acc ++ r.sda.toList }
    else { r with clk := some true }
  | .line .clk false => { r with clk := some false }
  | .i2cWrite _ _ _ _ .nack | .line .bl _ | .i2cProbe _ _ | .pinCfg _ | .delayUs _ | .delayMs _ | .pixIfProbe _
  | .alloc _ _ | .diag _ => r

/-- The pass over a trace. -/
def receiver (p : Params) (tr : List Event) : Receiver := tr.foldl (receive p) (receiverStart p)

/-- `rx(tr)` (R152). -/
def rx (p : Params) (tr : List Event) : List Received := (receiver p tr).frames

end Sys2Proof.Machine
end

