-- ==== Sys2Proof/Safety.lean ====
section
/-! DEFINITION. The vocabulary claims are stated in: the environment's next answers, the event sequences the rules
spell out, what a trace makes of the lines, runs of the Streamer and of all agents, and the invariants. No definition here
is used by a meaning. -/

namespace Sys2Proof.Machine

/-! The environment's answers to come. -/

/-- The answer the `k`-th `i2c_ack` question from now on gets (R8). -/
def ackAt (s : State) (k : Nat) : Ack := (s.acks[k]?).getD (Config.i2cAck (s.draws + (k - s.acks.length)))

/-- The state once `n` such questions have been answered. -/
def afterAcks (n : Nat) (s : State) : State :=
  { s with acks := s.acks.drop n, draws := s.draws + (n - s.acks.length) }

/-- The answer the next `pixif_present` question gets (R8). -/
def pixIfNext (s : State) : Presence := (s.pixIfAnswers[0]?).getD (Config.pixIf s.draws)

/-- The state once it has been answered. -/
def afterPixIf (s : State) : State :=
  { s with pixIfAnswers := s.pixIfAnswers.drop 1, draws := s.draws + (1 - s.pixIfAnswers.length) }

/-- The state after the bus writes of an operation: none on an uninitialised bus (R116). -/
def afterBusAcks (n : Nat) (s : State) : State := if s.expInitialized then afterAcks n s else s

/-! Events the rules spell out. -/

/-- The write of a word to register 0x02 (R112). -/
def outWrite (p : Params) (w : Word16) (r : Ack) : Event :=
  .i2cWrite p.expAddr 0x02 (w.extractLsb' 0 8) (w.extractLsb' 8 8) r

/-- The write of a word to register 0x06 (R112). -/
def dirWrite (p : Params) (w : Word16) (r : Ack) : Event :=
  .i2cWrite p.expAddr 0x06 (w.extractLsb' 0 8) (w.extractLsb' 8 8) r

/-- A chip register after a write with this answer (R112). -/
def chipAfter (old new : Word16) : Ack → Word16
  | .ok => new
  | .nack => old

/-- The mirror after a chip-select cycle: de-asserted on an initialised bus (R140). -/
def mirrorAfterXfer (s : State) : Word16 :=
  if s.expInitialized then insertBit s.expMirror s.params.csBit true else s.expMirror

/-- The chip's output register after a chip-select cycle from contents `out`, its two writes answered by the `k`-th and
the next answer (R112, R140). -/
def outAfterXfer (s : State) (out : Word16) (k : Nat) : Word16 :=
  if s.expInitialized then
    chipAfter (chipAfter out (insertBit s.expMirror s.params.csBit false) (ackAt s k))
      (insertBit s.expMirror s.params.csBit true) (ackAt s (k + 1))
  else out

/-- What EXP_SET sends: the mirror on an initialised bus (R115), nothing otherwise (R116). -/
def busSet (p : Params) (init : Bool) (w : Word16) (r : Ack) : List Event := if init then [outWrite p w r] else []

/-- The five events of one bit (R140). -/
def bitEvents (t : Nat) (b : Level) : List Event :=
  [.line .sda b, .delayUs t, .line .clk true, .delayUs t, .line .clk false]

/-- The nine bits of a frame as they are sent: the mode bit, then payload bit 7 down to bit 0 (R80). -/
def wireBits (m : Level) (p : Byte) : List Level :=
  [m, p.getLsbD 7, p.getLsbD 6, p.getLsbD 5, p.getLsbD 4, p.getLsbD 3, p.getLsbD 2, p.getLsbD 1, p.getLsbD 0]

/-- One chip-select cycle carrying one frame, from a mirror `w`, with the answers to its two bus writes (R140). -/
def xferEvents (p : Params) (init : Bool) (w : Word16) (m : Level) (b : Byte) (r0 r1 : Ack) : List Event :=
  busSet p init (insertBit w p.csBit false) r0 ++ [.delayUs p.tCsSettleUs] ++
    (wireBits m b).flatMap (bitEvents p.tBitUs) ++ busSet p init (insertBit w p.csBit true) r1 ++
      [.delayUs p.tCsReleaseUs]

/-- The reset pulse from a mirror `w` (R160). -/
def resetEvents (p : Params) (init : Bool) (w : Word16) (r0 r1 : Ack) : List Event :=
  busSet p init (insertBit w p.rstBit false) r0 ++ [.delayMs p.tRstHoldMs] ++
    busSet p init (insertBit w p.rstBit true) r1

/-- The frames a table entry sends, in order (R164, R166). -/
def entryFrames : RegisterOp → List (Level × Byte)
  | .write _ c ps => (false, c.extractLsb' 8 8) :: (true, c.extractLsb' 0 8) :: ps.map fun b => (true, b)
  | .delay _ => []

/-- The frames an operation sends, in order: none of an operation that is no transfer (R81, R82, R140, R144, R146,
R148, R164, R166, R177). -/
def framesOf (p : Params) : Instr → Option (List (Level × Byte))
  | .frameCmd b => some [(false, b)]
  | .frameData b | .sendData b => some [(true, b)]
  | .splitCmd h l => some [(false, h), (true, l)]
  | .sendCommand c => some (entryFrames (.write .setParam c []))
  | .xfer m b => some [(m, b)]
  | .writeReg c ps | .regopWrite _ c ps | .entryWrite _ c ps => some (entryFrames (.write .setParam c ps))
  | .regopDelay _ | .entryDelay _ | .panelReset => some []
  | .progRun => some (p.table.flatMap entryFrames)
  | .i2cWrite _ _ _ _ _ | .i2cWriteDir _ _ _ _ | .i2cWriteOut _ _ _ _ | .expInit | .expSet _ _ | .expGet _
  | .linkInit | .tsConfigure _ _ _ | .tsStart | .tsNotify _ | .bringUp | .backlightOn | .flush _ _ | .lineSet _ _
  | .delayUs _ | .delayMs _ | .tsTick | .cs _ | .rst _ | .clk _ | .sda _ | .bl _ => none

/-- The events of a list of frames, all bus writes acknowledged. -/
def framesShape (p : Params) (init : Bool) (w : Word16) (fs : List (Level × Byte)) : List Event :=
  fs.flatMap fun f => xferEvents p init w f.1 f.2 .ok .ok

/-- The events of the replay of an entry, all bus writes acknowledged (R164, R166). -/
def entryShape (p : Params) (init : Bool) (w : Word16) : RegisterOp → List Event
  | .write op c ps => framesShape p init w (entryFrames (.write op c ps))
  | .delay ms => [.delayMs ms]

/-- The events of PROG_RUN, all bus writes acknowledged: the reset pulse, then every entry in index order (R170). -/
def progRunShape (p : Params) (init : Bool) (w : Word16) : List Event :=
  resetEvents p init w .ok .ok ++ p.table.flatMap (entryShape p init (insertBit w p.rstBit true))

/-- The six events of LINK_INIT (R130). -/
def linkInitEvents : List Event :=
  [.pinCfg .clk, .pinCfg .sda, .pinCfg .bl, .line .clk false, .line .sda false, .line .bl false]

/-- An event with its answer forgotten: as if the bus write had been acknowledged. -/
def eraseAck : Event → Event
  | .i2cWrite a r l h _ => .i2cWrite a r l h .ok
  | .i2cProbe a _ => .i2cProbe a .ok
  | .pinCfg l => .pinCfg l
  | .line l n => .line l n
  | .delayUs n => .delayUs n
  | .delayMs n => .delayMs n
  | .pixIfProbe r => .pixIfProbe r
  | .alloc pool r => .alloc pool r
  | .diag e => .diag e

/-- An event that is not a bus transaction without acknowledgement. -/
def isAcked : Event → Bool
  | .i2cWrite _ _ _ _ r => r == .ok
  | .i2cProbe _ r => r == .ok
  | .pinCfg _ | .line _ _ | .delayUs _ | .delayMs _ | .pixIfProbe _ | .alloc _ _ | .diag _ => true

/-- A millisecond delay. -/
def isDelayMs : Event → Bool
  | .delayMs _ => true
  | .i2cWrite _ _ _ _ _ | .i2cProbe _ _ | .pinCfg _ | .line _ _ | .delayUs _ | .pixIfProbe _ | .alloc _ _ | .diag _ => false

/-- The events a step added to the control trace. -/
def newEvents (s t : State) : List Event := t.tr.drop s.tr.length

/-- The scanout events a step added. -/
def newScan (s t : State) : List ScanEvent := t.scan.drop s.scan.length

/-! What a trace makes of the chip and of the lines. -/

/-- A latch after a trace: the level of the last event of its line. -/
def padAfter (l : Line) (start : Pad) (es : List Event) : Pad :=
  es.foldl (fun q e => match e with
    | .line k n => if k = l then .driven n else q
    | _ => q) start

/-- A chip register after a trace: the word of the last acknowledged write to it (R112). -/
def chipRegAfter (p : Params) (reg : Byte) (start : Word16) (es : List Event) : Word16 :=
  es.foldl (fun q e => match e with
    | .i2cWrite a r l h .ok => if a = p.expAddr ∧ r = reg then h ++ l else q
    | _ => q) start

/-- The answer to the last bus write to register 0x02, if there was one. -/
def lastOutAnswer (p : Params) (es : List Event) : Option Ack :=
  es.foldl (fun q e => match e with
    | .i2cWrite a r _ _ k => if a = p.expAddr ∧ r = 0x02 then some k else q
    | _ => q) none

/-! Operations by kind. -/

/-- The operations and steps R131 forbids before LINK_INIT. -/
def needsLink : Instr → Bool
  | .frameCmd _ | .frameData _ | .splitCmd _ _ | .entryWrite _ _ _ | .entryDelay _ | .sendData _ | .sendCommand _
  | .panelReset | .progRun | .backlightOn | .xfer _ _ | .lineSet _ _ | .delayUs _ | .delayMs _
  | .regopWrite _ _ _ | .regopDelay _ | .clk _ | .sda _ | .bl _ | .writeReg _ _ => true
  | .i2cWrite _ _ _ _ _ | .i2cWriteDir _ _ _ _ | .i2cWriteOut _ _ _ _ | .expInit | .expSet _ _ | .expGet _
  | .linkInit | .tsConfigure _ _ _ | .tsStart | .tsNotify _ | .bringUp | .flush _ _ | .tsTick | .cs _ | .rst _ => false

/-- A bus write asked for as such, which the operations of ExpanderBus know nothing of. -/
def isBusWrite : Instr → Bool
  | .i2cWrite _ _ _ _ _ | .i2cWriteDir _ _ _ _ | .i2cWriteOut _ _ _ _ => true
  | .frameCmd _ | .frameData _ | .splitCmd _ _ | .entryWrite _ _ _ | .entryDelay _ | .sendData _ | .sendCommand _
  | .panelReset | .progRun | .backlightOn | .xfer _ _ | .lineSet _ _ | .delayUs _ | .delayMs _
  | .regopWrite _ _ _ | .regopDelay _ | .clk _ | .sda _ | .bl _ | .writeReg _ _ | .expInit | .expSet _ _ | .expGet _
  | .linkInit | .tsConfigure _ _ _ | .tsStart | .tsNotify _ | .bringUp | .flush _ _ | .tsTick | .cs _ | .rst _ => false

/-- The operations that may change a framebuffer: FLUSH writes one, TS_START (alone or in BRING_UP) allocates. -/
def touchesFramebuffer : Instr → Bool
  | .flush _ _ | .tsStart | .bringUp => true
  | .frameCmd _ | .frameData _ | .splitCmd _ _ | .entryWrite _ _ _ | .entryDelay _ | .sendData _ | .sendCommand _
  | .panelReset | .progRun | .backlightOn | .xfer _ _ | .lineSet _ _ | .delayUs _ | .delayMs _
  | .regopWrite _ _ _ | .regopDelay _ | .clk _ | .sda _ | .bl _ | .writeReg _ _ | .expInit | .expSet _ _ | .expGet _
  | .linkInit | .tsConfigure _ _ _ | .tsNotify _ | .tsTick | .cs _ | .rst _ | .i2cWrite _ _ _ _ _
  | .i2cWriteDir _ _ _ _ | .i2cWriteOut _ _ _ _ => false

/-! Rectangles and framebuffers. -/

/-- The pixel `(x, y)` lies in the rectangle (R88). -/
def rectCovers (r : Rect) (x y : Nat) : Prop := r.x0 ≤ x ∧ x < r.x1 ∧ r.y0 ≤ y ∧ y < r.y1

/-- The value a FLUSH gives pixel `(x, y)` of its rectangle: element `j × w + i` of its list (R89). -/
def flushedPixel (r : Rect) (ps : List Pixel) (x y : Nat) : Option Pixel :=
  ps[(y - r.y0) * (r.x1 - r.x0) + (x - r.x0)]?

/-- A framebuffer in canonical form: rising addresses, none beyond its 230400 pixels of two bytes. -/
def fbWf (fb : Framebuffer) : Bool := memWf fb.cells && fb.cells.all fun c => decide (c.1 < 2 * Config.fbPixels)

/-- The canonical form of a buffer that may not exist. -/
def optFbWf : Option Framebuffer → Bool
  | none => true
  | some fb => fbWf fb

/-- The pixel `d` can have been fetched from this view: from a stable one it is the pixel, from a racing one each byte
is the old or the new one (R62). -/
def pixelFrom (v : FbView) (i : Nat) (d : Pixel) : Prop :=
  match v with
  | .stable fb => d = fbPixel fb i
  | .racing old new =>
    (d.extractLsb' 0 8 = fbByte old (2 * i) ∨ d.extractLsb' 0 8 = fbByte new (2 * i)) ∧
      (d.extractLsb' 8 8 = fbByte old (2 * i + 1) ∨ d.extractLsb' 8 8 = fbByte new (2 * i + 1))

/-- A state with another staging buffer. -/
def withStaging (s : State) (g : Framebuffer) : State :=
  match s.params.streamMode, s.front with
  | .single, .zero | .double, .one => { s with fb0 := some g }
  | .single, .one | .double, .zero => { s with fb1 := some g }

/-! TS_START's allocation, round by round (R185). -/

/-- What became of one buffer. -/
inductive AllocRound
  | primaryOk
  | secondaryOk
  | bothFail
deriving DecidableEq, Repr

/-- Its events. -/
def roundEvents : AllocRound → List Event
  | .primaryOk => [.alloc .primary .ok]
  | .secondaryOk => [.alloc .primary .fail, .alloc .secondary .ok]
  | .bothFail => [.alloc .primary .fail, .alloc .secondary .fail]

/-- `NBUF` (R185). -/
def bufferCount : StreamMode → Nat
  | .single => 1
  | .double => 2

/-! Runs of the Streamer. -/

/-- The next tick is on the video-frame boundary (R192). -/
def atBoundary (s : State) : Bool := s.hcnt == 0 && s.vcnt == 0

/-- The next tick flips the buffers (R192, R207). -/
def flips (s : State) : Bool := atBoundary s && s.params.streamMode == .double && s.flipPending

/-- The front buffer's name once the next tick has or has not flipped. -/
def frontAfter (s : State) : Buffer := if flips s then otherBuffer s.front else s.front

/-- The Streamer can read whichever buffer the mode lets it front (R33). -/
def buffersExist (s : State) : Prop :=
  (bufferOf s s.front).isSome = true ∧
    (s.params.streamMode = .double → (bufferOf s (otherBuffer s.front)).isSome = true)

/-- `n` pixel clocks in a row. -/
def ticks : Nat → State → Answer
  | 0, s => .next s
  | n + 1, s =>
    match exec .tsTick s with
    | .next t => ticks n t
    | .fault f => .fault f
    | .refused r => .refused r

/-- `n` steps in a row, of whichever agents. -/
def steps : Nat → State → Answer
  | 0, s => .next s
  | n + 1, s =>
    match step s with
    | .next t => steps n t
    | .fault f => .fault f
    | .refused r => .refused r

/-- One move after another. -/
def andThen (x : Answer) (f : State → Answer) : Answer :=
  match x with
  | .next t => f t
  | .fault e => .fault e
  | .refused why => .refused why

/-- A FLUSH with pixel clocks between the Writer's moves: `a` before TS_NOTIFY, `b` before the next move and `c` before
the last, which a FLUSH of SINGLE mode has no need of. -/
def flushRound (a b c : Nat) (r : Rect) (ps : List Pixel) (s : State) : Answer :=
  andThen (andThen (andThen (andThen (andThen (andThen (exec (.flush r ps) s) (ticks a)) flushContinue) (ticks b))
    flushContinue) (ticks c)) flushContinue

/-- The pixel clocks of one video frame (R190). -/
def frameTicks (s : State) : Nat := htotal s.tsCfg.timing * vtotal s.tsCfg.timing

/-- The `Pix` events of a scanout trace. -/
def pixOnly (es : List ScanEvent) : List ScanEvent :=
  es.filter fun e => match e with
    | .pix _ _ _ _ => true
    | .flip => false

/-- An event in which the data-enable line is at this level. -/
def deIs (l : Level) : ScanEvent → Bool
  | .pix _ _ de _ => de == l
  | .flip => false

/-- An event in which the horizontal sync line is at this level. -/
def hsIs (l : Level) : ScanEvent → Bool
  | .pix hs _ _ _ => hs == l
  | .flip => false

/-- An event in which the vertical sync line is at this level. -/
def vsIs (l : Level) : ScanEvent → Bool
  | .pix _ vs _ _ => vs == l
  | .flip => false

/-- An event whose data lines carry this pixel. -/
def dataIs (d : Pixel) : ScanEvent → Bool
  | .pix _ _ _ d' => d' == d
  | .flip => false

/-! Invariants. -/

/-- Bits other than CS_BIT and RST_BIT keep their boot default (R12, R119). -/
def otherBitsDefault (p : Params) (w dflt : Word16) : Prop :=
  ∀ k : Fin 16, k ≠ p.csBit → k ≠ p.rstBit → w.getLsbD k.val = dflt.getLsbD k.val

/-- R119 (a) to (d), what holds of ExpanderBus. -/
structure ExpanderInv (s : State) : Prop where
  mirrorBits : otherBitsDefault s.params s.expMirror s.params.expOutDefault
  dirBits : otherBitsDefault s.params s.expHwDir s.params.expDirDefault
  mirrorAgrees : s.expInitialized = true → lastOutAnswer s.params s.tr = some .ok → s.expHwOut = s.expMirror
  driven : s.expInitialized = true →
    s.expHwDir.getLsbD s.params.csBit.val = false ∧ s.expHwDir.getLsbD s.params.rstBit.val = false

/-- The chip and the lines are what the trace says: nothing changes them but an event (R14, R17, R18, R112). -/
structure TraceInv (s : State) : Prop where
  out : s.expHwOut = chipRegAfter s.params 0x02 s.params.expOutDefault s.tr
  dir : s.expHwDir = chipRegAfter s.params 0x06 s.params.expDirDefault s.tr
  clk : s.clk = padAfter .clk .unconfigured s.tr
  sda : s.sda = padAfter .sda .unconfigured s.tr
  bl : s.bl = padAfter .bl .unconfigured s.tr

/-- What every state a run reaches has in common. -/
structure SysInv (s : State) : Prop where
  /-- The parameters meet R7 and R93. -/
  params : paramsWellFormed s.params = true
  /-- R12. -/
  mirror : otherBitsDefault s.params s.expMirror s.params.expOutDefault
  /-- R17, R18: no level before LINK_INIT, a level after. -/
  pads : if s.linkConfigured then (∃ a b c, s.clk = .driven a ∧ s.sda = .driven b ∧ s.bl = .driven c)
    else s.clk = .unconfigured ∧ s.sda = .unconfigured ∧ s.bl = .unconfigured
  /-- R25. -/
  index : s.ppIndex ≤ s.params.table.length
  /-- R27. -/
  done : s.ppDone = true → s.ppIndex = s.params.table.length ∧ s.ppState = .displaying
  /-- R31: what TS_CONFIGURE latched is well formed. -/
  config : s.tsState ≠ .unconfigured →
    configWellFormed s.tsCfg.timing s.tsCfg.dataPins s.tsCfg.ctrlPins = true
  /-- R32. -/
  scanning : s.tsState = .running → s.hcnt < htotal s.tsCfg.timing ∧ s.vcnt < vtotal s.tsCfg.timing
  /-- R33: the buffers exist while the Streamer runs. -/
  buffers : s.tsState = .running →
    s.fb0.isSome = true ∧ (s.params.streamMode = .double → s.fb1.isSome = true)
  /-- R33, R34: SINGLE mode has one buffer and no flip. -/
  singleMode : s.params.streamMode = .single → s.front = .zero ∧ s.flipPending = false
  /-- R63: DOUBLE mode needs no read window, since no FLUSH writes the front buffer. -/
  doubleMode : s.params.streamMode = .double → s.earlierViews = []
  /-- The framebuffers' memory is in canonical form. -/
  memory : optFbWf s.fb0 = true ∧ optFbWf s.fb1 = true
  /-- R36: a ready handle means that every stage is done. -/
  ready : s.panelReady = true →
    s.tsState = .running ∧ s.expInitialized = true ∧ s.linkConfigured = true ∧ s.ppDone = true ∧
      s.bringupError = none
  /-- R220, R256: while BRING_UP has yet to return, every stage is done but no handle is given. -/
  returning : s.bringUpReturning = true →
    s.tsState = .running ∧ s.expInitialized = true ∧ s.linkConfigured = true ∧ s.ppDone = true ∧
      s.bringupError = none ∧ s.panelReady = false
  /-- R37: a FLUSH in flight has a handle and a valid rectangle. -/
  flight : ∀ job, s.flush = some job → s.panelReady = true ∧ rectValid job.rect = true ∧ fbWf job.before = true
  /-- R205: when FLUSH comes to call TS_NOTIFY no flip is pending. -/
  noFlip : ∀ job, s.flush = some job → job.phase = .notify → s.flipPending = false

end Sys2Proof.Machine
end

