-- ==== Sys2Proof/Certificates/Slice0/Obligations.lean ====
section
/-! DEFINITION. The statements for the provers, from the numbered rules of spec/. -/

open Sys2Proof Sys2Proof.Machine

/-! Encoding. -/

/-- Decoding the encoding of any operation gives it back, every operand at every value; the general bus write with
register 0x06 or 0x02 comes back as the row that names that register, and runs the same (R81, R82, R85, R100, R104; operand words: log 8). -/
def Obligations.DecodeOfEncodeIsIdentity : Prop :=
  ∀ i : Instr, decode (encode i) = .ok i.canonical ∧ ∀ s : State, exec i.canonical s = exec i s

/-- A request that decodes is exactly the encoding of what it decodes to: no word of it is dropped (log 8). -/
def Obligations.EncodeOfDecodeIsIdentity : Prop :=
  ∀ (q : Request) (i : Instr), decode q = .ok i → encode i = q

/-- Words written out from the spec's encodings decode to what they stand for (R81, R82, R85, R100; V1, V11, V12). -/
def Obligations.SpecWordsDecode : Prop :=
  decodeTableWord 16 0b1_1010_0101 = some (.frameData 0xA5) ∧
  decodeTableWord 16 0b0_0001_0010 = some (.frameCmd 0x12) ∧
  decodeTableWord 24 0b000010010_100110100 = some (.splitCmd 0x12 0x34) ∧
  decodeTableWord 32 0x4006CFFF = some (.i2cWriteDir 0x20 0 0xCF 0xFF) ∧
  decodeTableWord 32 0x4002EFFF = some (.i2cWriteOut 0x20 0 0xEF 0xFF) ∧
  decodeTableWord 8 0x40 = some .bringUp ∧
  decodeTableWord 8 0x86 = some .tsTick

/-- A request whose `op_id` is not in the table of R100 has no step (R101); that it stands first in a queue on the host's
turn is this model's form of a request (log 4). -/
def Obligations.UnknownOpIdIsRefused : Prop :=
  ∀ (s : State) (ts : List Turn) (qs : List Request) (op : Nat) (args : List Nat),
    s.turns = .request :: ts → s.bringUpReturning = false → s.requests = ⟨.descriptor, op :: args⟩ :: qs →
    op ∉ [0x01, 0x02, 0x03, 0x10, 0x11, 0x12, 0x20, 0x21, 0x30, 0x31, 0x32, 0x40, 0x41, 0x42,
      0x80, 0x81, 0x82, 0x83, 0x84, 0x85, 0x86] →
    step s = .refused (.badRequest (.unknownOpId op))

/-- An operand outside its stated set has no meaning (R101), wherever it stands: a pin that is neither CS nor RST, a line
that is none of the three, a level or flag other than 0 or 1, a byte or a pin number of 256 or more, a code or pixel of
65536 or more, an entry opcode that is neither of the two. The first such operand is named. Words and the numbers of the
names are log 8's. -/
def Obligations.OperandsOutsideTheirSetsDoNotDecode : Prop :=
  (∀ p n, 2 ≤ p → decode ⟨.descriptor, [0x02, p, n]⟩ = .error (.badPin p)) ∧
  (∀ p n, p < 2 → 2 ≤ n → decode ⟨.descriptor, [0x02, p, n]⟩ = .error (.badLevel n)) ∧
  (∀ p, 2 ≤ p → decode ⟨.descriptor, [0x03, p]⟩ = .error (.badPin p)) ∧
  (∀ l n, 3 ≤ l → decode ⟨.descriptor, [0x81, l, n]⟩ = .error (.badLine l)) ∧
  (∀ l n, l < 3 → 2 ≤ n → decode ⟨.descriptor, [0x81, l, n]⟩ = .error (.badLevel n)) ∧
  (∀ m b, 2 ≤ m → decode ⟨.descriptor, [0x80, m, b]⟩ = .error (.badLevel m)) ∧
  (∀ m b, m < 2 → 256 ≤ b → decode ⟨.descriptor, [0x80, m, b]⟩ = .error (.badByte b)) ∧
  (∀ b, 256 ≤ b → decode ⟨.descriptor, [0x11, b]⟩ = .error (.badByte b)) ∧
  (∀ c, 65536 ≤ c → decode ⟨.descriptor, [0x12, c]⟩ = .error (.badWord c)) ∧
  (∀ bs n cs, (∀ b ∈ bs, b < 256) → 256 ≤ n → (bs ++ n :: cs).length = 4 →
    decode ⟨.busWrite, bs ++ n :: cs⟩ = .error (.badByte n)) ∧
  (∀ k n, k < 5 → 2 ≤ n → decode ⟨.pseudo, [k, n]⟩ = .error (.badLevel n)) ∧
  (∀ f k, (f, k) = (Format.descriptor, 0x84) ∨ (f, k) = (Format.tableEntry, 0) →
    (∀ o c n bs, 2 ≤ o → decode ⟨f, k :: o :: c :: n :: bs⟩ = .error (.badPageOp o)) ∧
    (∀ o c n bs, o < 2 → 65536 ≤ c → decode ⟨f, k :: o :: c :: n :: bs⟩ = .error (.badWord c)) ∧
    (∀ o c bs n cs, o < 2 → c < 65536 → (∀ b ∈ bs, b < 256) → 256 ≤ n →
      decode ⟨f, k :: o :: c :: (bs ++ n :: cs).length :: (bs ++ n :: cs)⟩ = .error (.badByte n))) ∧
  (∀ c n bs, 65536 ≤ c → decode ⟨.pseudo, 5 :: c :: n :: bs⟩ = .error (.badWord c)) ∧
  (∀ c bs n cs, c < 65536 → (∀ b ∈ bs, b < 256) → 256 ≤ n →
    decode ⟨.pseudo, 5 :: c :: (bs ++ n :: cs).length :: (bs ++ n :: cs)⟩ = .error (.badByte n)) ∧
  (∀ x0 y0 x1 y1 ps n qs, (∀ p ∈ ps, p < 65536) → 65536 ≤ n →
    decode ⟨.descriptor, 0x42 :: x0 :: y0 :: x1 :: y1 :: (ps ++ n :: qs).length :: (ps ++ n :: qs)⟩ =
      .error (.badWord n)) ∧
  (∀ a b c d e f g h i ls n ms pins, (∀ l ∈ ls, l < 2) → 2 ≤ n → (ls ++ n :: ms).length = 4 →
    decode ⟨.descriptor, [0x30, a, b, c, d, e, f, g, h, i] ++ (ls ++ n :: ms) ++ pins⟩ = .error (.badLevel n)) ∧
  (∀ a b c d e f g h i hs vs de inv bs n cs, hs < 2 → vs < 2 → de < 2 → inv < 2 → (∀ b ∈ bs, b < 256) → 256 ≤ n →
    (bs ++ n :: cs).length = 20 →
    decode ⟨.descriptor, [0x30, a, b, c, d, e, f, g, h, i, hs, vs, de, inv] ++ (bs ++ n :: cs)⟩ = .error (.badByte n))

/-! The step. -/

/-- On the host's turn, step is exec of the decoded request, with the request and the turn used up. The host issues
nothing, and only the turn passes, while BRING_UP has not returned, and, unless the request is a FLUSH, while a FLUSH is
in flight: operations run one at a time (R248; queue and turns: log 4; what waits: log 33). -/
def Obligations.StepRunsTheDecodedRequest : Prop :=
  ∀ (s : State) (ts : List Turn) (q : Request) (qs : List Request) (i : Instr),
    s.turns = .request :: ts → s.requests = q :: qs → decode q = .ok i →
    (s.bringUpReturning = false → (s.flush = none ∨ ∃ r ps, i = .flush r ps) →
      step s = exec i { s with turns := ts, requests := qs }) ∧
    (s.bringUpReturning = true → step s = .next { s with turns := ts }) ∧
    (s.flush ≠ none → (∀ r ps, i ≠ .flush r ps) → step s = .next { s with turns := ts })

/-- On the Streamer's turn, step is one TS_TICK while RUNNING, and otherwise only the turn passes (R198). -/
def Obligations.StreamerTurnIsOneTick : Prop :=
  ∀ (s : State) (ts : List Turn), s.turns = .streamer :: ts →
    (s.tsState = .running → step s = exec .tsTick { s with turns := ts }) ∧
    (s.tsState ≠ .running → step s = .next { s with turns := ts })

/-- The word placed for fetching is what the very next step runs, on the state it was placed in, wherever the host may
issue it: BRING_UP is not about to return, and no FLUSH is in flight or the word is one (logs 4 and 33). -/
def Obligations.FetchedWordRunsNext : Prop :=
  ∀ (s : State) (nbits w : Nat) (i : Instr), s.bringUpReturning = false →
    (s.flush = none ∨ ∃ r ps, i = .flush r ps) → decodeTableWord nbits w = some i →
    step (s.withFetchWord nbits w) = exec i s

/-! Reset. -/

/-- What reset leaves, for any parameters: the values R45 states, and, of the model's own fields, that no BRING_UP has yet
to return (`bringUpReturning`, log 5). -/
def Obligations.ResetLeavesTheStatedValues : Prop :=
  (∀ p : Params,
    let s := State.resetWith p
    s.params = p ∧ s.expInitialized = false ∧ s.expMirror = p.expOutDefault ∧
    s.expHwOut = p.expOutDefault ∧ s.expHwDir = p.expDirDefault ∧
    csLine s = (if p.expDirDefault.getLsbD p.csBit.val then none else some (p.expOutDefault.getLsbD p.csBit.val)) ∧
    rstLine s = (if p.expDirDefault.getLsbD p.rstBit.val then none else some (p.expOutDefault.getLsbD p.rstBit.val)) ∧
    s.linkConfigured = false ∧ s.clk = .unconfigured ∧ s.sda = .unconfigured ∧ s.bl = .unconfigured ∧
    s.ppIndex = 0 ∧ s.ppState = .reset ∧ s.ppDone = false ∧ s.tsState = .unconfigured ∧
    s.fb0 = none ∧ s.fb1 = none ∧ s.flipPending = false ∧ flushInFlight s = false ∧ s.panelReady = false ∧
    s.bringupError = none ∧ s.bringUpReturning = false ∧ s.frameNo = 0 ∧ s.tr = [] ∧ s.scan = []) ∧
  State.reset = State.resetWith Config.paramsEx

/-! ExpanderBus. -/

/-- `word[b] <- v` writes bit `b` and leaves the other fifteen (R235). -/
def Obligations.InsertBitWritesOneBit : Prop :=
  ∀ (w : Word16) (b k : Fin 16) (v : Level),
    (insertBit w b v).getLsbD k.val = if k = b then v else w.getLsbD k.val

/-- EXP_SET and its pseudo-operations CS(n), RST(n) on an initialised bus: mirror first, then the whole mirror to
register 0x02, low byte first; an acknowledged write changes the chip, an unacknowledged one is swallowed; nothing else
changes (R115, R117). -/
def Obligations.ExpSetWritesTheMirror : Prop :=
  ∀ (s : State) (pin : Pin) (n : Level), s.expInitialized = true →
    let bit : Fin 16 := match pin with | .cs => s.params.csBit | .rst => s.params.rstBit
    let m := insertBit s.expMirror bit n
    let t : State := { afterAcks 1 s with
      expMirror := m, expHwOut := chipAfter s.expHwOut m (ackAt s 0),
      tr := s.tr ++ [outWrite s.params m (ackAt s 0)], lastResult := some .void }
    exec (.expSet pin n) s = .next t ∧
    (pin = .cs → exec (.cs n) s = .next t) ∧ (pin = .rst → exec (.rst n) s = .next t)

/-- EXP_SET before any successful EXP_INIT is a no-op: no state, no event, no error; only its (empty) result is given
back (R116). -/
def Obligations.ExpSetUninitialisedIsNoOp : Prop :=
  ∀ (s : State) (pin : Pin) (n : Level), s.expInitialized = false →
    exec (.expSet pin n) s = .next { s with lastResult := some .void } ∧
    exec (.cs n) s = .next { s with lastResult := some .void } ∧
    exec (.rst n) s = .next { s with lastResult := some .void }

/-- EXP_GET answers from the mirror, in every state, and changes nothing; op_id 0x03 is an EXP_GET (R118). -/
def Obligations.ExpGetReadsTheMirror : Prop :=
  ∀ (s : State) (pin : Pin),
    let bit : Fin 16 := match pin with | .cs => s.params.csBit | .rst => s.params.rstBit
    exec (.expGet pin) s = .next { s with lastResult := some (.level (s.expMirror.getLsbD bit.val)) } ∧
    ∀ args i, decode ⟨.descriptor, 0x03 :: args⟩ = .ok i → ∃ q, i = .expGet q

/-- EXP_INIT: probe, direction write, output write, left at the first transaction without acknowledgement with
E_TRANSPORT_ABSENT; mirror and flag are written only when all three succeed (R110). -/
def Obligations.ExpInitRunsThreeTransactions : Prop :=
  ∀ s : State,
    let p := s.params
    let dir := insertBit (insertBit p.expDirDefault p.csBit false) p.rstBit false
    let out := insertBit (insertBit p.expOutDefault p.csBit true) p.rstBit true
    let absent : Option OpResult := some (.error (.transportAbsent .expInit))
    decode ⟨.descriptor, [0x01]⟩ = .ok .expInit ∧
    (ackAt s 0 = .nack → exec .expInit s = .next { afterAcks 1 s with
      tr := s.tr ++ [.i2cProbe p.expAddr .nack], lastResult := absent }) ∧
    (ackAt s 0 = .ok → ackAt s 1 = .nack → exec .expInit s = .next { afterAcks 2 s with
      tr := s.tr ++ [.i2cProbe p.expAddr .ok, dirWrite p dir .nack], lastResult := absent }) ∧
    (ackAt s 0 = .ok → ackAt s 1 = .ok → ackAt s 2 = .nack → exec .expInit s = .next { afterAcks 3 s with
      expHwDir := dir,
      tr := s.tr ++ [.i2cProbe p.expAddr .ok, dirWrite p dir .ok, outWrite p out .nack], lastResult := absent }) ∧
    (ackAt s 0 = .ok → ackAt s 1 = .ok → ackAt s 2 = .ok → exec .expInit s = .next { afterAcks 3 s with
      expHwDir := dir, expHwOut := out, expMirror := out, expInitialized := true,
      tr := s.tr ++ [.i2cProbe p.expAddr .ok, dirWrite p dir .ok, outWrite p out .ok], lastResult := some .ok })

/-- A bus write asked for as such is one atomic transaction, whatever its address and register number; acknowledged at
the expander's address it replaces register 0x02 or 0x06, and nothing else changes (R112; other addresses and register
numbers: log 10). A W flag that is not a write's is refused (log 11). -/
def Obligations.BusWriteReplacesOneRegister : Prop :=
  ∀ (s : State) (a : BusAddr) (r l h : Byte),
    let hit : Prop := a = s.params.expAddr ∧ ackAt s 0 = .ok
    let after : Byte → State := fun reg => { afterAcks 1 s with
      expHwOut := if hit ∧ reg = 0x02 then h ++ l else s.expHwOut,
      expHwDir := if hit ∧ reg = 0x06 then h ++ l else s.expHwDir,
      tr := s.tr ++ [.i2cWrite a reg l h (ackAt s 0)], lastResult := some .void }
    exec (.i2cWrite a 0 r l h) s = .next (after r) ∧
    exec (.i2cWriteDir a 0 l h) s = .next (after 0x06) ∧
    exec (.i2cWriteOut a 0 l h) s = .next (after 0x02) ∧
    exec (.i2cWrite a 1 r l h) s = .refused .badOperand ∧
    exec (.i2cWriteDir a 1 l h) s = .refused .badOperand ∧ exec (.i2cWriteOut a 1 l h) s = .refused .badOperand

/-- R119 (a) to (d) hold after every operation that is not a bus write asked for as such, if they held before. -/
def Obligations.ExpanderInvariantIsKept : Prop :=
  ∀ (i : Instr) (s t : State), isBusWrite i = false → paramsWellFormed s.params = true → ExpanderInv s →
    exec i s = .next t → ExpanderInv t

/-! BitBangLink. -/

/-- LINK_INIT: three PinCfg events, then the three lines driven low; the flag set; nothing else (R130). -/
def Obligations.LinkInitConfiguresThreeLines : Prop :=
  ∀ s : State,
    decode ⟨.descriptor, [0x10]⟩ = .ok .linkInit ∧
    exec .linkInit s = .next { s with
      clk := .driven false, sda := .driven false, bl := .driven false, linkConfigured := true,
      tr := s.tr ++ [.pinCfg .clk, .pinCfg .sda, .pinCfg .bl, .line .clk false, .line .sda false, .line .bl false],
      lastResult := some .void }

/-- Before LINK_INIT every other operation and step of BitBangLink, the programmer's operations and BACKLIGHT_ON are
refused (R131). -/
def Obligations.LinkOperationsNeedLinkInit : Prop :=
  ∀ (i : Instr) (s : State), needsLink i = true → s.linkConfigured = false →
    exec i s = .refused .linkNotConfigured

/-- LINE_SET and its pseudo-operations: the latch takes the level and the event is emitted, also when the level does
not change; nothing else; op_id 0x81 is a LINE_SET (R133). -/
def Obligations.LineSetDrivesOneLatch : Prop :=
  ∀ (s : State) (n : Level), s.linkConfigured = true →
    let c : State := { s with clk := .driven n, tr := s.tr ++ [.line .clk n], lastResult := some .void }
    let d : State := { s with sda := .driven n, tr := s.tr ++ [.line .sda n], lastResult := some .void }
    let b : State := { s with bl := .driven n, tr := s.tr ++ [.line .bl n], lastResult := some .void }
    exec (.lineSet .clk n) s = .next c ∧ exec (.clk n) s = .next c ∧
    exec (.lineSet .sda n) s = .next d ∧ exec (.sda n) s = .next d ∧
    exec (.lineSet .bl n) s = .next b ∧ exec (.bl n) s = .next b ∧
    ∀ args i, decode ⟨.descriptor, 0x81 :: args⟩ = .ok i → ∃ l m, i = .lineSet l m

/-- A delay is its event and changes no state, 0 included; a DELAY entry replays as DELAY_MS (R135, R166). -/
def Obligations.DelaysEmitTheirEvent : Prop :=
  ∀ (s : State) (n : Nat), s.linkConfigured = true →
    exec (.delayUs n) s = .next { s with tr := s.tr ++ [.delayUs n], lastResult := some .void } ∧
    exec (.delayMs n) s = .next { s with tr := s.tr ++ [.delayMs n], lastResult := some .void } ∧
    exec (.regopDelay n) s = .next { s with tr := s.tr ++ [.delayMs n], lastResult := some .void } ∧
    exec (.entryDelay n) s = .next { s with tr := s.tr ++ [.delayMs n], lastResult := some .void }

/-- XFER: chip-select assert, settle delay, nine clocked bits, de-assert, release delay, with the bus writes left out
on an uninitialised bus; 49 or 47 events; clock low, last bit on the data line, chip-select de-asserted in the mirror;
nothing else changes; op_id 0x80 is an XFER (R140). -/
def Obligations.XferSendsOneFrame : Prop :=
  ∀ (s : State) (m : Level) (b : Byte), s.linkConfigured = true →
    let es := xferEvents s.params s.expInitialized s.expMirror m b (ackAt s 0) (ackAt s 1)
    exec (.xfer m b) s = .next { afterBusAcks 2 s with
      expMirror := mirrorAfterXfer s, expHwOut := outAfterXfer s s.expHwOut 0,
      clk := .driven false, sda := .driven (b.getLsbD 0), tr := s.tr ++ es, lastResult := some .void } ∧
    es.length = (if s.expInitialized then 49 else 47) ∧
    ∀ args i, decode ⟨.descriptor, 0x80 :: args⟩ = .ok i → ∃ m' b', i = .xfer m' b'

/-- SEND_DATA sends one frame of mode 1, and so does a data frame; a command frame sends one of mode 0 (R81, R144). -/
def Obligations.SendDataIsOneDataFrame : Prop :=
  ∀ (s : State) (b : Byte), s.linkConfigured = true →
    let after : Level → State := fun m => { afterBusAcks 2 s with
      expMirror := mirrorAfterXfer s, expHwOut := outAfterXfer s s.expHwOut 0,
      clk := .driven false, sda := .driven (b.getLsbD 0),
      tr := s.tr ++ xferEvents s.params s.expInitialized s.expMirror m b (ackAt s 0) (ackAt s 1),
      lastResult := some .void }
    exec (.sendData b) s = .next (after true) ∧ exec (.frameData b) s = .next (after true) ∧
    exec (.frameCmd b) s = .next (after false)

/-- SEND_COMMAND: the high byte in a frame of mode 0, then the low byte in a frame of mode 1, each in its own
chip-select cycle; SPLIT_CMD is the same of its two bytes; nothing else changes (R82, R146). -/
def Obligations.SendCommandSendsTwoFrames : Prop :=
  ∀ (s : State) (h l : Byte), s.linkConfigured = true →
    let t : State := { afterBusAcks 4 s with
      expMirror := mirrorAfterXfer s, expHwOut := outAfterXfer s (outAfterXfer s s.expHwOut 0) 2,
      clk := .driven false, sda := .driven (l.getLsbD 0),
      tr := s.tr ++ (xferEvents s.params s.expInitialized s.expMirror false h (ackAt s 0) (ackAt s 1) ++
        xferEvents s.params s.expInitialized s.expMirror true l (ackAt s 2) (ackAt s 3)),
      lastResult := some .void }
    exec (.sendCommand (h ++ l)) s = .next t ∧ exec (.splitCmd h l) s = .next t

/-- WRITE_REG(c, ps), the replay of a WRITE entry (whatever its opcode) and the entry itself: the frames of the code's
two bytes, then one data frame a byte, in order; nothing else changes, and the chip and the data line are what the new
events make of them (R148, R164). -/
def Obligations.WriteRegSendsCodeThenBytes : Prop :=
  ∀ (s : State) (c : Word16) (ps : List Byte) (op : PageOp), s.linkConfigured = true →
    ∃ t, exec (.writeReg c ps) s = .next t ∧
      exec (.regopWrite op c ps) s = .next t ∧ exec (.entryWrite op c ps) s = .next t ∧
      s.tr <+: t.tr ∧
      (newEvents s t).map eraseAck =
        framesShape s.params s.expInitialized s.expMirror (entryFrames (.write op c ps)) ∧
      t = { s with
        tr := t.tr, acks := t.acks, draws := t.draws, expMirror := mirrorAfterXfer s,
        expHwOut := chipRegAfter s.params 0x02 s.expHwOut (newEvents s t),
        clk := .driven false, sda := padAfter .sda s.sda (newEvents s t), lastResult := some .void }

/-- From an idle link and an initialised bus whose chip follows the trace, with every bus write acknowledged, the
receiver gets exactly the frames that were sent: one for XFER, two for SEND_COMMAND, 2 + N for WRITE_REG and for a WRITE
entry (R153), and for PROG_RUN the frames of each WRITE entry, in index order, nothing else (R177); sampling edge and
start: logs 18 and 30. -/
def Obligations.ReceiverGetsTheFramesSent : Prop :=
  ∀ (s t : State) (i : Instr) (fs : List (Level × Byte)), framesOf s.params i = some fs →
    (i = .progRun ∨ i = .panelReset → s.params.csBit ≠ s.params.rstBit) →
    s.expInitialized = true → s.linkConfigured = true → TraceInv s → csLine s = some true →
    s.clk = .driven false → exec i s = .next t → (newEvents s t).all isAcked = true →
    rx t.params t.tr = rx s.params s.tr ++ fs.map fun f => .frame f.1 f.2

/-! PanelProgrammer. -/

/-- PANEL_RESET: reset asserted, held (at least 10 ms, as the parameters demand), released, no delay after; only DelayMs
on an uninitialised bus (R160). -/
def Obligations.PanelResetPulsesReset : Prop :=
  ∀ s : State, s.linkConfigured = true →
    let lo := insertBit s.expMirror s.params.rstBit false
    let hi := insertBit s.expMirror s.params.rstBit true
    decode ⟨.descriptor, [0x20]⟩ = .ok .panelReset ∧
    (paramsWellFormed s.params = true → 10 ≤ s.params.tRstHoldMs) ∧
    exec .panelReset s = .next { afterBusAcks 2 s with
      expMirror := if s.expInitialized then hi else s.expMirror,
      expHwOut := if s.expInitialized then chipAfter (chipAfter s.expHwOut lo (ackAt s 0)) hi (ackAt s 1)
        else s.expHwOut,
      tr := s.tr ++ resetEvents s.params s.expInitialized s.expMirror (ackAt s 0) (ackAt s 1),
      lastResult := some .void }

/-- PROG_RUN: the reset pulse, then every entry once, in index order, with every delay in its place; it always
completes, with `pp_index` at the end and `pp_state` displaying; nothing else changes (R170). With the delays in R174's
places, which are the model's predicate `delaysInPlace` (log 22), what is sent before the sleep-out entry holds two of
them beside the reset hold, and the last thing PROG_RUN does is the third. -/
def Obligations.ProgRunReplaysTheWholeTable : Prop :=
  ∀ s : State, s.linkConfigured = true → paramsWellFormed s.params = true →
    decode ⟨.descriptor, [0x21]⟩ = .ok .progRun ∧
    ∃ t, exec .progRun s = .next t ∧ s.tr <+: t.tr ∧
      (newEvents s t).map eraseAck = progRunShape s.params s.expInitialized s.expMirror ∧
      t = { s with
        tr := t.tr, acks := t.acks, draws := t.draws,
        ppIndex := s.params.table.length, ppState := .displaying, ppDone := true,
        expMirror := if s.expInitialized then
            insertBit (insertBit s.expMirror s.params.rstBit true) s.params.csBit true else s.expMirror,
        expHwOut := chipRegAfter s.params 0x02 s.expHwOut (newEvents s t),
        clk := .driven false, sda := padAfter .sda s.sda (newEvents s t), lastResult := some .void } ∧
      (delaysInPlace s.params.table s.params.milestones = true →
        (∃ m pre, s.params.milestones[6]? = some m ∧ (s.params.table.take m).countP (fun e => !entryIsWrite e) = 2 ∧
          pre = resetEvents s.params s.expInitialized s.expMirror .ok .ok ++ (s.params.table.take m).flatMap
            (entryShape s.params s.expInitialized (insertBit s.expMirror s.params.rstBit true)) ∧
          pre <+: (newEvents s t).map eraseAck ∧ pre.countP isDelayMs = 3) ∧
        ∃ ms, (newEvents s t).getLast? = some (.delayMs ms) ∧ 100 ≤ ms ∧ ms ≤ 150)

/-- PROG_RUN from the same mirror, chip and lines, with the same answers, appends the same events and leaves the same
block state, whatever else differs (R176). -/
def Obligations.ProgRunDependsOnlyOnMirrorAndAnswers : Prop :=
  ∀ s s' t t' : State,
    s'.params = s.params → s'.expInitialized = s.expInitialized → s'.expMirror = s.expMirror →
    s'.expHwOut = s.expHwOut → s'.clk = s.clk → s'.sda = s.sda → s'.acks = s.acks → s'.draws = s.draws →
    exec .progRun s = .next t → exec .progRun s' = .next t' →
    newEvents s' t' = newEvents s t ∧ t'.expMirror = t.expMirror ∧ t'.expHwOut = t.expHwOut ∧
      t'.clk = t.clk ∧ t'.sda = t.sda ∧ t'.ppIndex = t.ppIndex ∧ t'.ppState = t.ppState ∧ t'.ppDone = t.ppDone

/-! TimingStreamer. -/

/-- TS_CONFIGURE: refused when not UNCONFIGURED or not well formed; otherwise the probe, and on `present` the latched
configuration, on `absent` E_TRANSPORT_ABSENT with nothing latched; op_id 0x30 is a TS_CONFIGURE (R180). -/
def Obligations.TsConfigureLatchesOnce : Prop :=
  ∀ (s : State) (t : Timing) (d : DataPins) (c : CtrlPins),
    (∀ args i, decode ⟨.descriptor, 0x30 :: args⟩ = .ok i → ∃ t' d' c', i = .tsConfigure t' d' c') ∧
    (s.tsState ≠ .unconfigured → exec (.tsConfigure t d c) s = .refused .alreadyConfigured) ∧
    (s.tsState = .unconfigured → configWellFormed t d c = false →
      exec (.tsConfigure t d c) s = .refused .badConfig) ∧
    (s.tsState = .unconfigured → configWellFormed t d c = true → pixIfNext s = .absent →
      exec (.tsConfigure t d c) s = .next { afterPixIf s with
        tr := s.tr ++ [.pixIfProbe .absent], lastResult := some (.error (.transportAbsent .tsConfigure)) }) ∧
    (s.tsState = .unconfigured → configWellFormed t d c = true → pixIfNext s = .present →
      exec (.tsConfigure t d c) s = .next { afterPixIf s with
        tsCfg := ⟨t, d, c⟩, tsState := .configured,
        tr := s.tr ++ [.pixIfProbe .present], lastResult := some .ok })

/-- A configuration is well formed exactly when R181 says so, and one that is not is refused. -/
def Obligations.ConfigWellFormedIsRule181 : Prop :=
  ∀ (t : Timing) (d : DataPins) (c : CtrlPins),
    let ok : Prop := t.hres = 480 ∧ t.vres = 480 ∧ 1 ≤ t.hpw ∧ 1 ≤ t.vpw ∧ 1 ≤ t.pclkHz ∧ t.pclkInverted = false ∧
      (d.toList ++ [c.hsync, c.vsync, c.de, c.pclk]).Pairwise (· ≠ ·)
    (configWellFormed t d c = true ↔ ok) ∧
    ∀ s : State, s.tsState = .unconfigured → ¬ok → exec (.tsConfigure t d c) s = .refused .badConfig

/-- TS_START is refused when not CONFIGURED and after a failed BRING_UP (R287; log 32). Otherwise: one or two buffers, each from the primary pool, else from the secondary; if both fail for one, E_ALLOC,
no buffer and still CONFIGURED; else the scan at its origin and RUNNING. Nothing else changes (R185). -/
def Obligations.TsStartAllocatesOrFails : Prop :=
  ∀ s : State,
    (s.tsState ≠ .configured → exec .tsStart s = .refused .notConfiguredOrAlreadyRunning) ∧
    (s.tsState = .configured → s.bringupError ≠ none → exec .tsStart s = .refused .bringUpFailed) ∧
    (s.tsState = .configured → s.bringupError = none → ∃ (t : State) (rounds : List AllocRound),
      exec .tsStart s = .next t ∧ t.tr = s.tr ++ rounds.flatMap roundEvents ∧
      t = { s with
        tr := t.tr, allocAnswers := t.allocAnswers, draws := t.draws, fb0 := t.fb0, fb1 := t.fb1, fbPool := t.fbPool,
        front := t.front, hcnt := t.hcnt, vcnt := t.vcnt, frameNo := t.frameNo, flipPending := t.flipPending,
        earlierViews := t.earlierViews, tsState := t.tsState, lastResult := t.lastResult } ∧
      (.bothFail ∉ rounds →
        rounds.length = bufferCount s.params.streamMode ∧ t.lastResult = some .ok ∧ t.tsState = .running ∧
        t.front = .zero ∧ t.hcnt = 0 ∧ t.vcnt = 0 ∧ t.frameNo = 0 ∧ t.flipPending = false ∧
        t.earlierViews = [] ∧
        (t.fbPool = if rounds.getLast? = some .primaryOk then .primary else .secondary) ∧
        (∃ fb, t.fb0 = some fb ∧ fb.cells = []) ∧
        (s.params.streamMode = .single → t.fb1 = s.fb1) ∧
        (s.params.streamMode = .double → ∃ fb, t.fb1 = some fb ∧ fb.cells = [])) ∧
      (.bothFail ∈ rounds →
        rounds.getLast? = some .bothFail ∧ rounds.length ≤ bufferCount s.params.streamMode ∧
        t.lastResult = some (.error (.alloc .tsStart)) ∧ t.tsState = .configured ∧ t.fb0 = none ∧ t.fb1 = none ∧
        t.front = s.front ∧ t.hcnt = s.hcnt ∧ t.vcnt = s.vcnt ∧ t.frameNo = s.frameNo ∧
        t.flipPending = s.flipPending ∧ t.earlierViews = s.earlierViews))

/-- TS_START with every pool willing, and no failed BRING_UP before it, completes: RUNNING, the buffers the mode needs, one
Alloc event each (R185). -/
def Obligations.TsStartCompletes : Prop :=
  ∀ (s : State) (rest : List AllocAnswer), s.tsState = .configured → s.bringupError = none →
    s.allocAnswers = List.replicate (bufferCount s.params.streamMode) .ok ++ rest →
    exec .tsStart s = .next { s with
      allocAnswers := rest, draws := s.draws + bufferCount s.params.streamMode,
      fb0 := some { drawn := s.draws, cells := [] },
      fb1 := match s.params.streamMode with
        | .single => s.fb1
        | .double => some { drawn := s.draws + 1, cells := [] },
      fbPool := .primary, front := .zero, hcnt := 0, vcnt := 0, frameNo := 0, flipPending := false,
      earlierViews := [], tsState := .running,
      tr := s.tr ++ List.replicate (bufferCount s.params.streamMode) (.alloc .primary .ok), lastResult := some .ok }

/-- TS_TICK: at a frame boundary the pending flip and the frame count; then one Pix with the levels of R193; then the
counters, wrapping at HTOTAL and VTOTAL; no pixel and nothing else changes (R192). The window bookkeeping is log 6's. -/
def Obligations.TickScansOnePixelClock : Prop :=
  ∀ s : State, s.tsState = .running → buffersExist s →
    let g := s.tsCfg.timing
    let active := g.hpw + g.hbp ≤ s.hcnt ∧ s.hcnt < g.hpw + g.hbp + 480 ∧
      g.vpw + g.vbp ≤ s.vcnt ∧ s.vcnt < g.vpw + g.vbp + 480
    ∃ d, exec .tsTick s = .next { s with
      front := frontAfter s,
      flipPending := if flips s then false else s.flipPending,
      frameNo := if atBoundary s then s.frameNo + 1 else s.frameNo,
      earlierViews := if atBoundary s then [] else s.earlierViews,
      draws := s.draws + 1,
      hcnt := if s.hcnt + 1 = g.hpw + g.hbp + 480 + g.hfp then 0 else s.hcnt + 1,
      vcnt := if s.hcnt + 1 = g.hpw + g.hbp + 480 + g.hfp then
          (if s.vcnt + 1 = g.vpw + g.vbp + 480 + g.vfp then 0 else s.vcnt + 1) else s.vcnt,
      scan := s.scan ++ ((if flips s then [.flip] else []) ++
        [.pix (if s.hcnt < g.hpw then g.hsyncActive else !g.hsyncActive)
          (if s.vcnt < g.vpw then g.vsyncActive else !g.vsyncActive)
          (if active then g.deActive else !g.deActive) d]) }

/-- With no FLUSH to race, the pixel output at active position `(x, y)` is `FB[front][y × 480 + x]` (R194). Where the
active window stands, and the level of data-enable in it, are R192's and R193's, under the period order of log 19, which
is PRESUMED. -/
def Obligations.TickReadsThePixel : Prop :=
  ∀ (s t : State) (fb : Framebuffer) (x y : Nat),
    exec .tsTick s = .next t → bufferOf s (frontAfter s) = some fb →
    (s.params.streamMode = .double ∨ s.flush = none) → (atBoundary s = true ∨ s.earlierViews = []) →
    x < 480 → y < 480 → s.hcnt = s.tsCfg.timing.hpw + s.tsCfg.timing.hbp + x →
    s.vcnt = s.tsCfg.timing.vpw + s.tsCfg.timing.vbp + y →
    ∃ hs vs, t.scan.getLast? = some (.pix hs vs s.tsCfg.timing.deActive (fbPixel fb (y * 480 + x)))

/-- Whatever races, an active pixel is fetched from a view of the front buffer inside the frame's read window, and from
a racing view each of its bytes is the old or the new one (R61, R62). Where the active window stands, and the level of
data-enable in it, are R192's and R193's, under the period order of log 19, which is PRESUMED. -/
def Obligations.TickReadsInsideTheWindow : Prop :=
  ∀ (s t : State) (fb : Framebuffer) (x y : Nat),
    exec .tsTick s = .next t → bufferOf s (frontAfter s) = some fb →
    x < 480 → y < 480 → s.hcnt = s.tsCfg.timing.hpw + s.tsCfg.timing.hbp + x →
    s.vcnt = s.tsCfg.timing.vpw + s.tsCfg.timing.vbp + y →
    ∃ v hs vs d, v ∈ currentView s fb :: (if atBoundary s then [] else s.earlierViews) ∧
      pixelFrom v (y * 480 + x) d ∧
      t.scan.getLast? = some (.pix hs vs s.tsCfg.timing.deActive d)

/-- From the start of a frame, `n` pixel clocks put the scan at position `n` of the frame walk; they emit `n` Pix
events and touch neither the buffers nor the control trace (R190, R192, R198). -/
def Obligations.ScanPositionAfterTicks : Prop :=
  ∀ (s : State) (n : Nat), s.tsState = .running → buffersExist s → s.hcnt = 0 → s.vcnt = 0 →
    ∃ t, ticks n s = .next t ∧
      t.hcnt = n % htotal s.tsCfg.timing ∧
      t.vcnt = n / htotal s.tsCfg.timing % vtotal s.tsCfg.timing ∧
      t.frameNo = s.frameNo + (n + htotal s.tsCfg.timing * vtotal s.tsCfg.timing - 1) /
        (htotal s.tsCfg.timing * vtotal s.tsCfg.timing) ∧
      (pixOnly (newScan s t)).length = n ∧ s.scan <+: t.scan ∧
      t.fb0 = s.fb0 ∧ t.fb1 = s.fb1 ∧ t.tr = s.tr ∧ t.tsState = .running

/-- One video frame: HTOTAL × VTOTAL Pix events, 230400 of them with data-enable, HPW × VTOTAL with hsync and
VPW × HTOTAL with vsync active; a Flip stands only before the first (R200). First for pixel clocks that follow each
other, which always come to the end of the frame; then for any run of steps, of all agents, from the start of a frame to
its last Pix. -/
def Obligations.VideoFrameHasItsCounts : Prop :=
  ∀ (s : State), s.tsState = .running → s.hcnt = 0 → s.vcnt = 0 →
    let g := s.tsCfg.timing
    let frame : List ScanEvent → Prop := fun es =>
      .flip ∉ es ∧ es.length = htotal g * vtotal g ∧
      es.countP (deIs g.deActive) = 480 * 480 ∧
      es.countP (hsIs g.hsyncActive) = g.hpw * vtotal g ∧
      es.countP (vsIs g.vsyncActive) = g.vpw * htotal g
    (buffersExist s → ∃ t es, ticks (htotal g * vtotal g) s = .next t ∧
      newScan s t = (if flips s then [.flip] else []) ++ es ∧ frame es) ∧
    (∀ n t, steps n s = .next t → (pixOnly (newScan s t)).length = htotal g * vtotal g →
      ∃ es, (newScan s t = es ∨ newScan s t = .flip :: es) ∧ frame es)

/-- A buffer of one colour, with no FLUSH in flight, reaches the bus as that colour: from the start of a frame, every
Pix with data-enable of the frame carries it, unchanged (R194, R232(b)). -/
def Obligations.SolidColourReachesTheBus : Prop :=
  ∀ (s t : State) (fb : Framebuffer) (colour : Pixel) (n : Nat),
    s.tsState = .running → s.hcnt = 0 → s.vcnt = 0 → s.flush = none →
    n ≤ htotal s.tsCfg.timing * vtotal s.tsCfg.timing →
    bufferOf s (frontAfter s) = some fb → (∀ k, k < Config.fbPixels → fbPixel fb k = colour) →
    ticks n s = .next t →
    (newScan s t).all (fun e => !deIs s.tsCfg.timing.deActive e || dataIs colour e) = true

/-- The pin mapping of a Pix (R196): bit `i` on `data_pins[i]`, the four control lines on theirs. -/
def Obligations.PinsCarryThePixel : Prop :=
  ∀ (c : TsCfg) (hs vs de : Level) (d : Pixel), configWellFormed c.timing c.dataPins c.ctrlPins = true →
    (∀ i : Fin 16, pinSignal c hs vs de d (c.dataPins[i]) = .level (d.getLsbD i.val)) ∧
    pinSignal c hs vs de d c.ctrlPins.hsync = .level hs ∧ pinSignal c hs vs de d c.ctrlPins.vsync = .level vs ∧
    pinSignal c hs vs de d c.ctrlPins.de = .level de ∧ pinSignal c hs vs de d c.ctrlPins.pclk = .clockCycle

/-- TS_NOTIFY: its three refusals in order; nothing but its result in SINGLE mode, the flip request in DOUBLE mode;
op_id 0x32 is a TS_NOTIFY (R205). -/
def Obligations.TsNotifyRequestsTheFlip : Prop :=
  ∀ (s : State) (r : Rect),
    (∀ args i, decode ⟨.descriptor, 0x32 :: args⟩ = .ok i → ∃ q, i = .tsNotify q) ∧
    (s.tsState ≠ .running → exec (.tsNotify r) s = .refused .notRunning) ∧
    (s.tsState = .running → ¬(r.x0 < r.x1 ∧ r.x1 ≤ 480 ∧ r.y0 < r.y1 ∧ r.y1 ≤ 480) →
      exec (.tsNotify r) s = .refused .badRect) ∧
    (s.tsState = .running → (r.x0 < r.x1 ∧ r.x1 ≤ 480 ∧ r.y0 < r.y1 ∧ r.y1 ≤ 480) →
      (s.params.streamMode = .single → exec (.tsNotify r) s = .next { s with lastResult := some .void }) ∧
      (s.params.streamMode = .double → s.flipPending = true →
        exec (.tsNotify r) s = .refused .flipAlreadyPending) ∧
      (s.params.streamMode = .double → s.flipPending = false →
        exec (.tsNotify r) s =
          .next { s with flipRect := r, flipPending := true, lastResult := some .void }))

/-! PanelBringup. -/

/-- BACKLIGHT_ON: the backlight line to 1, and nothing else (R226). -/
def Obligations.BacklightOnDrivesOne : Prop :=
  ∀ s : State,
    decode ⟨.descriptor, [0x41]⟩ = .ok .backlightOn ∧
    (s.linkConfigured = true → exec .backlightOn s =
      .next { s with bl := .driven true, tr := s.tr ++ [.line .bl true], lastResult := some .void }) ∧
    (s.linkConfigured = false → exec .backlightOn s = .refused .linkNotConfigured)

/-- A second BRING_UP, after success or after failure, is refused (R223). -/
def Obligations.BringUpRunsOnce : Prop :=
  ∀ s : State, s.panelReady = true ∨ s.bringupError.isSome = true →
    exec .bringUp s = .refused .bringUpOnce

/-- A BRING_UP whose probe is not answered ends there: the probe, the diagnostic, the error; nothing else (R220, T7). -/
def Obligations.BringUpStopsAtAFailedProbe : Prop :=
  ∀ s : State, s.panelReady = false → s.bringUpReturning = false → s.bringupError = none → ackAt s 0 = .nack →
    exec .bringUp s = .next { afterAcks 1 s with
      tr := s.tr ++ [.i2cProbe s.params.expAddr .nack, .diag (.transportAbsent .expInit)],
      bringupError := some (.transportAbsent .expInit),
      lastResult := some (.error (.transportAbsent .expInit)) }

/-- BRING_UP either comes to its return with every stage done and the Streamer running, or ends with an error that is
recorded, reported last in the trace and leaves the Streamer not running; there is no partial success. The return is the
Sequencer's next move, however many ticks fall before it, and gives the ready handle; until then another BRING_UP is
refused (R220, R256; that the return is a step of its own, and turns: logs 4, 5 and 27). -/
def Obligations.BringUpIsReadyOrFailsLoudly : Prop :=
  (∀ s t : State, s.panelReady = false → s.bringUpReturning = false → s.bringupError = none → s.tsState ≠ .running →
    exec .bringUp s = .next t →
    (t.bringUpReturning = true ∧ t.lastResult = none ∧ t.panelReady = false ∧ t.bringupError = none ∧
      t.tsState = .running ∧ t.expInitialized = true ∧ t.linkConfigured = true ∧ t.ppDone = true ∧
      t.bl = .driven true) ∨
    (∃ e, t.lastResult = some (.error e) ∧ t.panelReady = false ∧ t.bringUpReturning = false ∧
      t.bringupError = some e ∧ t.tsState ≠ .running ∧ t.tr.getLast? = some (.diag e) ∧
      (e = .transportAbsent .expInit ∨ e = .transportAbsent .tsConfigure ∨ e = .alloc .tsStart))) ∧
  (∀ (u : State) (ts : List Turn), u.turns = .sequencer :: ts →
    (u.bringUpReturning = true → step u = .next { u with
      turns := ts, panelReady := true, bringUpReturning := false, lastResult := some .ready }) ∧
    (u.bringUpReturning = false → step u = .next { u with turns := ts })) ∧
  (∀ u : State, u.bringUpReturning = true → exec .bringUp u = .refused .bringUpOnce) ∧
  (∀ (u t : State) (ts : List Turn), u.bringUpReturning = true → u.turns = .streamer :: ts → step u = .next t →
    t.bringUpReturning = true ∧ t.turns = ts)

/-- BRING_UP with a willing environment runs the five stages in strict order, each with its own events, the backlight
before the stream, and comes to its return, the Streamer running (R220, R273; the return: log 5). -/
def Obligations.BringUpRunsTheFiveStages : Prop :=
  ∀ (s : State) (rest : List AllocAnswer),
    s.panelReady = false → s.bringUpReturning = false → s.bringupError = none → s.tsState = .unconfigured →
    paramsWellFormed s.params = true →
    ackAt s 0 = .ok → ackAt s 1 = .ok → ackAt s 2 = .ok → s.pixIfAnswers.head? = some .present →
    s.allocAnswers = List.replicate (bufferCount s.params.streamMode) .ok ++ rest →
    let p := s.params
    let dir := insertBit (insertBit p.expDirDefault p.csBit false) p.rstBit false
    let out := insertBit (insertBit p.expOutDefault p.csBit true) p.rstBit true
    ∃ t, exec .bringUp s = .next t ∧ s.tr <+: t.tr ∧
      (newEvents s t).map eraseAck =
        [.i2cProbe p.expAddr .ok, dirWrite p dir .ok, outWrite p out .ok] ++ linkInitEvents ++
          progRunShape p true out ++ [.line .bl true] ++ [.pixIfProbe .present] ++
            List.replicate (bufferCount p.streamMode) (.alloc .primary .ok) ∧
      t = { s with
        tr := t.tr, acks := t.acks, draws := t.draws, pixIfAnswers := s.pixIfAnswers.tail, allocAnswers := rest,
        expInitialized := true, expMirror := out, expHwDir := dir,
        expHwOut := chipRegAfter p 0x02 s.expHwOut (newEvents s t),
        linkConfigured := true, clk := .driven false, sda := padAfter .sda s.sda (newEvents s t),
        bl := .driven true, ppIndex := p.table.length, ppState := .displaying, ppDone := true,
        tsCfg := ⟨timingOf p, p.dataPins, p.ctrlPins⟩, tsState := .running, front := .zero, hcnt := 0, vcnt := 0,
        frameNo := 0, flipPending := false, earlierViews := [], fbPool := .primary, fb0 := t.fb0, fb1 := t.fb1,
        bringUpReturning := true, lastResult := none } ∧
      (∃ fb, t.fb0 = some fb ∧ fb.cells = []) ∧
      (p.streamMode = .double → ∃ fb, t.fb1 = some fb ∧ fb.cells = []) ∧ (p.streamMode = .single → t.fb1 = s.fb1)

/-- FLUSH with a rectangle not wholly inside the framebuffer, or empty, is rejected with E_INVALID_REGION, code 3:
nothing is written, whatever the pixel list (R230, R244, T3). -/
def Obligations.FlushRejectsABadRegion : Prop :=
  ∀ (s : State) (r : Rect) (ps : List Pixel), s.panelReady = true → s.flush = none →
    ¬(r.x0 < r.x1 ∧ r.x1 ≤ 480 ∧ r.y0 < r.y1 ∧ r.y1 ≤ 480) →
    exec (.flush r ps) s = .next { s with lastResult := some (.error (.invalidRegion r)) } ∧
    errCode (.invalidRegion r) = 3

/-- FLUSH without a handle, or while one is in flight, or with a wrong pixel count, is refused, in that order and the
count only after the region is found valid (R230, R248). -/
def Obligations.FlushRefusesInOrder : Prop :=
  ∀ (s : State) (r : Rect) (ps : List Pixel),
    (s.panelReady = false → exec (.flush r ps) s = .refused .noHandle) ∧
    (s.panelReady = true → s.flush.isSome = true → exec (.flush r ps) s = .refused .concurrentFlush) ∧
    (s.panelReady = true → s.flush = none → r.x0 < r.x1 → r.x1 ≤ 480 → r.y0 < r.y1 → r.y1 ≤ 480 →
      ps.length ≠ (r.x1 - r.x0) * (r.y1 - r.y0) → exec (.flush r ps) s = .refused .badLength)

/-- FLUSH: the staging buffer takes each pixel of the rectangle at `y × 480 + x` and keeps every other byte; the FLUSH is
in flight, about to call TS_NOTIFY, and its caller waits; nothing else changes (R230; its moves: log 5). -/
def Obligations.FlushWritesItsRectangle : Prop :=
  ∀ (s : State) (r : Rect) (ps : List Pixel) (fb : Framebuffer),
    s.panelReady = true → s.flush = none → s.tsState = .running →
    r.x0 < r.x1 → r.x1 ≤ 480 → r.y0 < r.y1 → r.y1 ≤ 480 → ps.length = (r.x1 - r.x0) * (r.y1 - r.y0) →
    bufferOf s (stagingOf s) = some fb → (s.params.streamMode = .double → s.flipPending = false) →
    ∃ g, exec (.flush r ps) s = .next { withStaging s g with
        flush := some { rect := r, before := fb, phase := .notify },
        earlierViews := if s.params.streamMode = .double then s.earlierViews else .stable fb :: s.earlierViews,
        lastResult := none } ∧
      g.drawn = fb.drawn ∧
      (∀ x y, rectCovers r x y → flushedPixel r ps x y = some (fbPixel g (y * 480 + x))) ∧
      (∀ a, (∀ x y, rectCovers r x y → a ≠ 2 * (y * 480 + x) ∧ a ≠ 2 * (y * 480 + x) + 1) →
        memRead g.cells a = memRead fb.cells a)

/-- In SINGLE mode the Writer's next move is TS_NOTIFY, which changes nothing, and the one after it completes the FLUSH;
the view it ends stays in the read window (R206, R231; log 6). -/
def Obligations.SingleFlushCompletes : Prop :=
  ∀ (s : State) (ts : List Turn) (job : FlushJob) (fb : Framebuffer),
    s.turns = .writer :: ts → s.flush = some job → s.params.streamMode = .single → bufferOf s s.front = some fb →
    (job.phase = .notify → s.tsState = .running → rectValid job.rect = true →
      step s = .next { s with turns := ts, flush := some { job with phase := .complete } }) ∧
    (job.phase = .complete → step s = .next { s with
      turns := ts, flush := none, earlierViews := .racing job.before fb :: s.earlierViews,
      lastResult := some .ok })

/-- In DOUBLE mode the Writer requests the flip, waits while it is pending, after it copies its rectangle from the new
front to the new staging buffer, every other byte kept, and then completes: one move each, and a frame boundary may fall
between any two (R198, R205, R207, R208, R230). -/
def Obligations.DoubleFlushWaitsThenCopiesBack : Prop :=
  ∀ (s : State) (ts : List Turn) (job : FlushJob) (f b : Framebuffer),
    s.turns = .writer :: ts → s.flush = some job → s.params.streamMode = .double →
    bufferOf s s.front = some f → bufferOf s (stagingOf s) = some b → rectValid job.rect = true →
    (job.phase = .notify → s.tsState = .running → s.flipPending = false →
      step s = .next { s with
        turns := ts, flush := some { job with phase := .flip }, flipRect := job.rect, flipPending := true }) ∧
    (job.phase = .flip → s.flipPending = true → step s = .next { s with turns := ts }) ∧
    (job.phase = .flip → s.flipPending = false → ∃ g,
      step s = .next { withStaging s g with turns := ts, flush := some { job with phase := .complete } } ∧
      g.drawn = b.drawn ∧
      (∀ x y, rectCovers job.rect x y → fbPixel g (y * 480 + x) = fbPixel f (y * 480 + x)) ∧
      (∀ a, (∀ x y, rectCovers job.rect x y → a ≠ 2 * (y * 480 + x) ∧ a ≠ 2 * (y * 480 + x) + 1) →
        memRead g.cells a = memRead b.cells a)) ∧
    (job.phase = .complete → step s = .next { s with turns := ts, flush := none, lastResult := some .ok })

/-- A FLUSH that has completed, whatever steps of whatever agents fell inside it, as long as no request was issued after
it, is in the front and in the staging buffer, and every pixel outside its rectangle is in each buffer as before: no
other operation comes between (R60, R198, R248). And two FLUSHes with disjoint rectangles, one after the other, in either
mode: the front and the staging buffer hold both inputs, and every pixel neither covers is in each buffer as before. Any
number of pixel clocks may fall between any two moves of the Writer; those before the copy-back of DOUBLE mode last the
clocks of one video frame at least, by which the flip has come (R208, R232(a), T4, P4). -/
def Obligations.DisjointFlushesBothStay : Prop :=
  (∀ (s t u : State) (r : Rect) (ps : List Pixel) (n : Nat),
    exec (.flush r ps) s = .next t → t.flush ≠ none → steps n t = .next u → u.requests = t.requests → u.flush = none →
    ∀ k, k = u.front ∨ k = stagingOf u → ∃ b g, bufferOf s k = some b ∧ bufferOf u k = some g ∧
      (∀ x y, rectCovers r x y → flushedPixel r ps x y = some (fbPixel g (y * 480 + x))) ∧
      (∀ x y, x < 480 → y < 480 → ¬rectCovers r x y → fbPixel g (y * 480 + x) = fbPixel b (y * 480 + x))) ∧
  (∀ (s : State) (r1 r2 : Rect) (p1 p2 : List Pixel) (a1 b1 c1 a2 b2 c2 : Nat),
    s.panelReady = true → s.flush = none → s.tsState = .running → buffersExist s →
    s.hcnt < htotal s.tsCfg.timing → s.vcnt < vtotal s.tsCfg.timing →
    rectValid r1 = true → rectValid r2 = true →
    p1.length = rectWidth r1 * rectHeight r1 → p2.length = rectWidth r2 * rectHeight r2 →
    (∀ x y, ¬(rectCovers r1 x y ∧ rectCovers r2 x y)) →
    (s.params.streamMode = .double → s.flipPending = false ∧ frameTicks s ≤ b1 ∧ frameTicks s ≤ b2) →
    ∃ t u, flushRound a1 b1 c1 r1 p1 s = .next t ∧ t.flush = none ∧
      flushRound a2 b2 c2 r2 p2 t = .next u ∧ u.flush = none ∧
      ∀ k, k = u.front ∨ k = stagingOf u → ∃ b g, bufferOf s k = some b ∧ bufferOf u k = some g ∧
        (∀ x y, rectCovers r1 x y → flushedPixel r1 p1 x y = some (fbPixel g (y * 480 + x))) ∧
        (∀ x y, rectCovers r2 x y → flushedPixel r2 p2 x y = some (fbPixel g (y * 480 + x))) ∧
        (∀ x y, x < 480 → y < 480 → ¬rectCovers r1 x y → ¬rectCovers r2 x y →
          fbPixel g (y * 480 + x) = fbPixel b (y * 480 + x)))

/-! Whole-machine rules. -/

/-- Nothing changes a parameter, so TABLE is immutable (R7, R67; log 1). -/
def Obligations.ParametersNeverChange : Prop :=
  ∀ s t : State, step s = .next t → t.params = s.params

/-- The two traces are append-only (R40). -/
def Obligations.TracesOnlyGrow : Prop :=
  ∀ s t : State, step s = .next t → s.tr <+: t.tr ∧ s.scan <+: t.scan

/-- What nothing clears stays: `exp_initialized`, `link_configured`, `panel_ready`, a recorded bring-up error, and
RUNNING, which no operation leaves (R13, R30, R41, R198). And after a failed BRING_UP the Streamer does not start: if it is
not RUNNING, no step makes it so, and no Pix is emitted (R220, R287; a direct TS_START: log 32). -/
def Obligations.LatchedStatusStays : Prop :=
  ∀ s t : State, step s = .next t →
    (s.expInitialized = true → t.expInitialized = true) ∧ (s.linkConfigured = true → t.linkConfigured = true) ∧
    (s.panelReady = true → t.panelReady = true) ∧
    (∀ e, s.bringupError = some e → t.bringupError = some e) ∧
    (s.tsState = .running → t.tsState = .running ∧ t.tsCfg = s.tsCfg) ∧
    (s.bringupError ≠ none → s.tsState ≠ .running → t.tsState ≠ .running ∧ t.scan = s.scan)

/-- Only FLUSH, TS_START and BRING_UP touch a framebuffer: the Streamer reads and never writes (R50, R58, R198). -/
def Obligations.OnlyFlushAndStartTouchFramebuffers : Prop :=
  ∀ (i : Instr) (s t : State), touchesFramebuffer i = false → exec i s = .next t → t.fb0 = s.fb0 ∧ t.fb1 = s.fb1

/-- In DOUBLE mode, between frame boundaries, no step changes which buffer is in front nor any byte of it: a video
frame comes from one buffer that no FLUSH wrote during it (R63). -/
def Obligations.DoubleModeFrontIsStableWithinAFrame : Prop :=
  ∀ s t : State, s.params.streamMode = .double → s.tsState = .running → atBoundary s = false →
    step s = .next t → t.front = s.front ∧ bufferOf t t.front = bufferOf s s.front

/-- The chip's registers and the three line latches are what the control trace makes of them, after every step
(R14, R17, R18, R112). -/
def Obligations.TraceInvariantIsKept : Prop :=
  ∀ s t : State, TraceInv s → step s = .next t → TraceInv t

/-- Every step keeps what every reachable state has in common. -/
def Obligations.SystemInvariantIsKept : Prop :=
  ∀ s t : State, SysInv s → step s = .next t → SysInv t

/-- The state after reset meets the three invariants, for all parameters that meet R7 and R93 (and for the example
set of log 2 they do, with the delays in R174's places, log 22). -/
def Obligations.ResetMeetsTheInvariants : Prop :=
  (∀ p : Params, paramsWellFormed p = true →
    SysInv (State.resetWith p) ∧ TraceInv (State.resetWith p) ∧ ExpanderInv (State.resetWith p)) ∧
  paramsWellFormed Config.paramsEx = true ∧ delaysInPlace Config.paramsEx.table Config.paramsEx.milestones = true

/-- Where the system invariant holds, no step answers a fault, and no move of the Writer is refused: the refusals of
TS_NOTIFY cannot arise from FLUSH (R33, R54, R205). -/
def Obligations.NoStepFaults : Prop :=
  ∀ s : State, SysInv s → (∀ f : Fault, step s ≠ .fault f) ∧
    ∀ ts : List Turn, s.turns = .writer :: ts → ∃ t, step s = .next t
end

