-- ==== Sys2Proof/Laws/Encoding.lean ====
section
/-! SUPPORT. The operand words, there and back: each reader undoes its writer, and answers only what its writer would
have written. -/

namespace Sys2Proof

theorem asByte_toNat (b : Byte) : asByte b.toNat = .ok b := by
  have : b.toNat < 256 := b.isLt
  simp [asByte, this]

theorem toNat_of_asByte {n : Nat} {b : Byte} (h : asByte n = .ok b) : b.toNat = n := by
  unfold asByte at h
  split at h
  · cases h
    simp only [BitVec.toNat_ofNat]
    omega
  · cases h

theorem asWord_toNat (w : Word16) : asWord w.toNat = .ok w := by
  have : w.toNat < 65536 := w.isLt
  simp [asWord, this]

theorem toNat_of_asWord {n : Nat} {w : Word16} (h : asWord n = .ok w) : w.toNat = n := by
  unfold asWord at h
  split at h
  · cases h
    simp only [BitVec.toNat_ofNat]
    omega
  · cases h

theorem asLevel_ofLevel (b : Level) : asLevel (ofLevel b) = .ok b := by cases b <;> rfl

theorem ofLevel_of_asLevel {n : Nat} {b : Level} (h : asLevel n = .ok b) : ofLevel b = n := by
  unfold asLevel at h
  split at h <;> cases h <;> rfl

theorem asPin_ofPin (p : Pin) : asPin (ofPin p) = .ok p := by cases p <;> rfl

theorem ofPin_of_asPin {n : Nat} {p : Pin} (h : asPin n = .ok p) : ofPin p = n := by
  unfold asPin at h
  split at h <;> cases h <;> rfl

theorem asLine_ofLine (l : Line) : asLine (ofLine l) = .ok l := by cases l <;> rfl

theorem ofLine_of_asLine {n : Nat} {l : Line} (h : asLine n = .ok l) : ofLine l = n := by
  unfold asLine at h
  split at h <;> cases h <;> rfl

theorem asPageOp_ofPageOp (o : PageOp) : asPageOp (ofPageOp o) = .ok o := by cases o <;> rfl

theorem ofPageOp_of_asPageOp {n : Nat} {o : PageOp} (h : asPageOp n = .ok o) : ofPageOp o = n := by
  unfold asPageOp at h
  split at h <;> cases h <;> rfl

@[simp] theorem length_ofBytes (bs : List Byte) : (ofBytes bs).length = bs.length := List.length_map _

@[simp] theorem length_ofWords (ws : List Word16) : (ofWords ws).length = ws.length := List.length_map _

theorem asBytes_ofBytes (bs : List Byte) : asBytes (ofBytes bs) = .ok bs := by
  induction bs with
  | nil => rfl
  | cons b bs ih =>
    have ih' : asBytes (bs.map BitVec.toNat) = .ok bs := ih
    simp only [ofBytes, List.map_cons, asBytes, asByte_toNat, ih']
    rfl

theorem ofBytes_of_asBytes {ns : List Nat} {bs : List Byte} (h : asBytes ns = .ok bs) : ofBytes bs = ns := by
  induction ns generalizing bs with
  | nil => cases h; rfl
  | cons n ns ih =>
    cases hb : asByte n with
    | error e => simp [asBytes, hb, bind, Except.bind] at h
    | ok b =>
      cases hs : asBytes ns with
      | error e => simp [asBytes, hb, hs, bind, Except.bind] at h
      | ok cs =>
        simp only [asBytes, hb, hs, bind, Except.bind, pure, Except.pure, Except.ok.injEq] at h
        have ih' : cs.map BitVec.toNat = ns := ih hs
        rw [← h, ofBytes, List.map_cons, toNat_of_asByte hb, ih']

theorem asWords_ofWords (ws : List Word16) : asWords (ofWords ws) = .ok ws := by
  induction ws with
  | nil => rfl
  | cons w ws ih =>
    have ih' : asWords (ws.map BitVec.toNat) = .ok ws := ih
    simp only [ofWords, List.map_cons, asWords, asWord_toNat, ih']
    rfl

theorem ofWords_of_asWords {ns : List Nat} {ws : List Word16} (h : asWords ns = .ok ws) : ofWords ws = ns := by
  induction ns generalizing ws with
  | nil => cases h; rfl
  | cons n ns ih =>
    cases hb : asWord n with
    | error e => simp [asWords, hb, bind, Except.bind] at h
    | ok b =>
      cases hs : asWords ns with
      | error e => simp [asWords, hb, hs, bind, Except.bind] at h
      | ok cs =>
        simp only [asWords, hb, hs, bind, Except.bind, pure, Except.pure, Except.ok.injEq] at h
        have ih' : cs.map BitVec.toNat = ns := ih hs
        rw [← h, ofWords, List.map_cons, toNat_of_asWord hb, ih']

/-- A list operand is taken whole when its count is right. -/
theorem counted_eq {n : Nat} {ns : List Nat} (h : ns.length = n) : counted n ns = .ok ns := by simp [counted, h]

/-- The number of a serial frame: the mode bit weighs 256 (R80). -/
theorem frameWord_eq (m : Level) (p : Byte) : frameWord m p = (if m then 256 else 0) + p.toNat := by
  have h : frameWord m p = (BitVec.ofBool m).toNat * 256 + p.toNat := by
    refine (BitVec.toNat_append (x := BitVec.ofBool m) (y := p)).trans ?_
    have : p.toNat < 2 ^ 8 := p.isLt
    rw [Nat.shiftLeft_eq, Nat.mul_comm, ← Nat.two_pow_add_eq_or_of_lt this]
  rw [h]
  cases m <;> rfl

/-- The address and the W flag come back out of byte 0 of a bus write (R85). -/
theorem addrByte_address (a : BusAddr) (w : BitVec 1) : (addrByte a w).extractLsb' 1 7 = a := by
  refine BitVec.eq_of_getLsbD_eq fun i hi => ?_
  rw [BitVec.getLsbD_extractLsb']
  refine (congrArg (decide (i < 7) && ·) (BitVec.getLsbD_append (x := a) (y := w) (i := 1 + i))).trans ?_
  simp [hi]

theorem addrByte_flag (a : BusAddr) (w : BitVec 1) : (addrByte a w).extractLsb' 0 1 = w := by
  refine BitVec.eq_of_getLsbD_eq fun i hi => ?_
  rw [BitVec.getLsbD_extractLsb']
  refine (congrArg (decide (i < 1) && ·) (BitVec.getLsbD_append (x := a) (y := w) (i := 0 + i))).trans ?_
  simp [show i = 0 by omega]

end Sys2Proof
end

