-- ==== Sys2Proof/Laws/State.lean ====
section
/-! SUPPORT. One lemma for each field of State under each named update, so that no proof unfolds a record update. -/

namespace Sys2Proof.Machine

/-! `emit`. -/

@[simp] theorem emit_params (e : Event) (s : State) : (emit e s).params = s.params := rfl
@[simp] theorem emit_expMirror (e : Event) (s : State) : (emit e s).expMirror = s.expMirror := rfl
@[simp] theorem emit_expInitialized (e : Event) (s : State) : (emit e s).expInitialized = s.expInitialized := rfl
@[simp] theorem emit_expHwOut (e : Event) (s : State) : (emit e s).expHwOut = s.expHwOut := rfl
@[simp] theorem emit_expHwDir (e : Event) (s : State) : (emit e s).expHwDir = s.expHwDir := rfl
@[simp] theorem emit_linkConfigured (e : Event) (s : State) : (emit e s).linkConfigured = s.linkConfigured := rfl
@[simp] theorem emit_clk (e : Event) (s : State) : (emit e s).clk = s.clk := rfl
@[simp] theorem emit_sda (e : Event) (s : State) : (emit e s).sda = s.sda := rfl
@[simp] theorem emit_bl (e : Event) (s : State) : (emit e s).bl = s.bl := rfl
@[simp] theorem emit_ppIndex (e : Event) (s : State) : (emit e s).ppIndex = s.ppIndex := rfl
@[simp] theorem emit_ppState (e : Event) (s : State) : (emit e s).ppState = s.ppState := rfl
@[simp] theorem emit_ppDone (e : Event) (s : State) : (emit e s).ppDone = s.ppDone := rfl
@[simp] theorem emit_tsState (e : Event) (s : State) : (emit e s).tsState = s.tsState := rfl
@[simp] theorem emit_tsCfg (e : Event) (s : State) : (emit e s).tsCfg = s.tsCfg := rfl
@[simp] theorem emit_hcnt (e : Event) (s : State) : (emit e s).hcnt = s.hcnt := rfl
@[simp] theorem emit_vcnt (e : Event) (s : State) : (emit e s).vcnt = s.vcnt := rfl
@[simp] theorem emit_fb0 (e : Event) (s : State) : (emit e s).fb0 = s.fb0 := rfl
@[simp] theorem emit_fb1 (e : Event) (s : State) : (emit e s).fb1 = s.fb1 := rfl
@[simp] theorem emit_front (e : Event) (s : State) : (emit e s).front = s.front := rfl
@[simp] theorem emit_fbPool (e : Event) (s : State) : (emit e s).fbPool = s.fbPool := rfl
@[simp] theorem emit_flipPending (e : Event) (s : State) : (emit e s).flipPending = s.flipPending := rfl
@[simp] theorem emit_flipRect (e : Event) (s : State) : (emit e s).flipRect = s.flipRect := rfl
@[simp] theorem emit_frameNo (e : Event) (s : State) : (emit e s).frameNo = s.frameNo := rfl
@[simp] theorem emit_panelReady (e : Event) (s : State) : (emit e s).panelReady = s.panelReady := rfl
@[simp] theorem emit_flush (e : Event) (s : State) : (emit e s).flush = s.flush := rfl
@[simp] theorem emit_bringupError (e : Event) (s : State) : (emit e s).bringupError = s.bringupError := rfl
@[simp] theorem emit_bringUpReturning (e : Event) (s : State) : (emit e s).bringUpReturning = s.bringUpReturning := rfl
@[simp] theorem emit_tr (e : Event) (s : State) : (emit e s).tr = s.tr ++ [e] := rfl
@[simp] theorem emit_scan (e : Event) (s : State) : (emit e s).scan = s.scan := rfl
@[simp] theorem emit_earlierViews (e : Event) (s : State) : (emit e s).earlierViews = s.earlierViews := rfl
@[simp] theorem emit_requests (e : Event) (s : State) : (emit e s).requests = s.requests := rfl
@[simp] theorem emit_turns (e : Event) (s : State) : (emit e s).turns = s.turns := rfl
@[simp] theorem emit_acks (e : Event) (s : State) : (emit e s).acks = s.acks := rfl
@[simp] theorem emit_pixIfAnswers (e : Event) (s : State) : (emit e s).pixIfAnswers = s.pixIfAnswers := rfl
@[simp] theorem emit_allocAnswers (e : Event) (s : State) : (emit e s).allocAnswers = s.allocAnswers := rfl
@[simp] theorem emit_draws (e : Event) (s : State) : (emit e s).draws = s.draws := rfl
@[simp] theorem emit_lastResult (e : Event) (s : State) : (emit e s).lastResult = s.lastResult := rfl

/-! `scanEmit`. -/

@[simp] theorem scanEmit_params (e : ScanEvent) (s : State) : (scanEmit e s).params = s.params := rfl
@[simp] theorem scanEmit_expMirror (e : ScanEvent) (s : State) : (scanEmit e s).expMirror = s.expMirror := rfl
@[simp] theorem scanEmit_expInitialized (e : ScanEvent) (s : State) : (scanEmit e s).expInitialized = s.expInitialized := rfl
@[simp] theorem scanEmit_expHwOut (e : ScanEvent) (s : State) : (scanEmit e s).expHwOut = s.expHwOut := rfl
@[simp] theorem scanEmit_expHwDir (e : ScanEvent) (s : State) : (scanEmit e s).expHwDir = s.expHwDir := rfl
@[simp] theorem scanEmit_linkConfigured (e : ScanEvent) (s : State) : (scanEmit e s).linkConfigured = s.linkConfigured := rfl
@[simp] theorem scanEmit_clk (e : ScanEvent) (s : State) : (scanEmit e s).clk = s.clk := rfl
@[simp] theorem scanEmit_sda (e : ScanEvent) (s : State) : (scanEmit e s).sda = s.sda := rfl
@[simp] theorem scanEmit_bl (e : ScanEvent) (s : State) : (scanEmit e s).bl = s.bl := rfl
@[simp] theorem scanEmit_ppIndex (e : ScanEvent) (s : State) : (scanEmit e s).ppIndex = s.ppIndex := rfl
@[simp] theorem scanEmit_ppState (e : ScanEvent) (s : State) : (scanEmit e s).ppState = s.ppState := rfl
@[simp] theorem scanEmit_ppDone (e : ScanEvent) (s : State) : (scanEmit e s).ppDone = s.ppDone := rfl
@[simp] theorem scanEmit_tsState (e : ScanEvent) (s : State) : (scanEmit e s).tsState = s.tsState := rfl
@[simp] theorem scanEmit_tsCfg (e : ScanEvent) (s : State) : (scanEmit e s).tsCfg = s.tsCfg := rfl
@[simp] theorem scanEmit_hcnt (e : ScanEvent) (s : State) : (scanEmit e s).hcnt = s.hcnt := rfl
@[simp] theorem scanEmit_vcnt (e : ScanEvent) (s : State) : (scanEmit e s).vcnt = s.vcnt := rfl
@[simp] theorem scanEmit_fb0 (e : ScanEvent) (s : State) : (scanEmit e s).fb0 = s.fb0 := rfl
@[simp] theorem scanEmit_fb1 (e : ScanEvent) (s : State) : (scanEmit e s).fb1 = s.fb1 := rfl
@[simp] theorem scanEmit_front (e : ScanEvent) (s : State) : (scanEmit e s).front = s.front := rfl
@[simp] theorem scanEmit_fbPool (e : ScanEvent) (s : State) : (scanEmit e s).fbPool = s.fbPool := rfl
@[simp] theorem scanEmit_flipPending (e : ScanEvent) (s : State) : (scanEmit e s).flipPending = s.flipPending := rfl
@[simp] theorem scanEmit_flipRect (e : ScanEvent) (s : State) : (scanEmit e s).flipRect = s.flipRect := rfl
@[simp] theorem scanEmit_frameNo (e : ScanEvent) (s : State) : (scanEmit e s).frameNo = s.frameNo := rfl
@[simp] theorem scanEmit_panelReady (e : ScanEvent) (s : State) : (scanEmit e s).panelReady = s.panelReady := rfl
@[simp] theorem scanEmit_flush (e : ScanEvent) (s : State) : (scanEmit e s).flush = s.flush := rfl
@[simp] theorem scanEmit_bringupError (e : ScanEvent) (s : State) : (scanEmit e s).bringupError = s.bringupError := rfl
@[simp] theorem scanEmit_bringUpReturning (e : ScanEvent) (s : State) : (scanEmit e s).bringUpReturning = s.bringUpReturning := rfl
@[simp] theorem scanEmit_tr (e : ScanEvent) (s : State) : (scanEmit e s).tr = s.tr := rfl
@[simp] theorem scanEmit_scan (e : ScanEvent) (s : State) : (scanEmit e s).scan = s.scan ++ [e] := rfl
@[simp] theorem scanEmit_earlierViews (e : ScanEvent) (s : State) : (scanEmit e s).earlierViews = s.earlierViews := rfl
@[simp] theorem scanEmit_requests (e : ScanEvent) (s : State) : (scanEmit e s).requests = s.requests := rfl
@[simp] theorem scanEmit_turns (e : ScanEvent) (s : State) : (scanEmit e s).turns = s.turns := rfl
@[simp] theorem scanEmit_acks (e : ScanEvent) (s : State) : (scanEmit e s).acks = s.acks := rfl
@[simp] theorem scanEmit_pixIfAnswers (e : ScanEvent) (s : State) : (scanEmit e s).pixIfAnswers = s.pixIfAnswers := rfl
@[simp] theorem scanEmit_allocAnswers (e : ScanEvent) (s : State) : (scanEmit e s).allocAnswers = s.allocAnswers := rfl
@[simp] theorem scanEmit_draws (e : ScanEvent) (s : State) : (scanEmit e s).draws = s.draws := rfl
@[simp] theorem scanEmit_lastResult (e : ScanEvent) (s : State) : (scanEmit e s).lastResult = s.lastResult := rfl

/-! `returned`. -/

@[simp] theorem returned_params (r : OpResult) (s : State) : (returned r s).params = s.params := rfl
@[simp] theorem returned_expMirror (r : OpResult) (s : State) : (returned r s).expMirror = s.expMirror := rfl
@[simp] theorem returned_expInitialized (r : OpResult) (s : State) : (returned r s).expInitialized = s.expInitialized := rfl
@[simp] theorem returned_expHwOut (r : OpResult) (s : State) : (returned r s).expHwOut = s.expHwOut := rfl
@[simp] theorem returned_expHwDir (r : OpResult) (s : State) : (returned r s).expHwDir = s.expHwDir := rfl
@[simp] theorem returned_linkConfigured (r : OpResult) (s : State) : (returned r s).linkConfigured = s.linkConfigured := rfl
@[simp] theorem returned_clk (r : OpResult) (s : State) : (returned r s).clk = s.clk := rfl
@[simp] theorem returned_sda (r : OpResult) (s : State) : (returned r s).sda = s.sda := rfl
@[simp] theorem returned_bl (r : OpResult) (s : State) : (returned r s).bl = s.bl := rfl
@[simp] theorem returned_ppIndex (r : OpResult) (s : State) : (returned r s).ppIndex = s.ppIndex := rfl
@[simp] theorem returned_ppState (r : OpResult) (s : State) : (returned r s).ppState = s.ppState := rfl
@[simp] theorem returned_ppDone (r : OpResult) (s : State) : (returned r s).ppDone = s.ppDone := rfl
@[simp] theorem returned_tsState (r : OpResult) (s : State) : (returned r s).tsState = s.tsState := rfl
@[simp] theorem returned_tsCfg (r : OpResult) (s : State) : (returned r s).tsCfg = s.tsCfg := rfl
@[simp] theorem returned_hcnt (r : OpResult) (s : State) : (returned r s).hcnt = s.hcnt := rfl
@[simp] theorem returned_vcnt (r : OpResult) (s : State) : (returned r s).vcnt = s.vcnt := rfl
@[simp] theorem returned_fb0 (r : OpResult) (s : State) : (returned r s).fb0 = s.fb0 := rfl
@[simp] theorem returned_fb1 (r : OpResult) (s : State) : (returned r s).fb1 = s.fb1 := rfl
@[simp] theorem returned_front (r : OpResult) (s : State) : (returned r s).front = s.front := rfl
@[simp] theorem returned_fbPool (r : OpResult) (s : State) : (returned r s).fbPool = s.fbPool := rfl
@[simp] theorem returned_flipPending (r : OpResult) (s : State) : (returned r s).flipPending = s.flipPending := rfl
@[simp] theorem returned_flipRect (r : OpResult) (s : State) : (returned r s).flipRect = s.flipRect := rfl
@[simp] theorem returned_frameNo (r : OpResult) (s : State) : (returned r s).frameNo = s.frameNo := rfl
@[simp] theorem returned_panelReady (r : OpResult) (s : State) : (returned r s).panelReady = s.panelReady := rfl
@[simp] theorem returned_flush (r : OpResult) (s : State) : (returned r s).flush = s.flush := rfl
@[simp] theorem returned_bringupError (r : OpResult) (s : State) : (returned r s).bringupError = s.bringupError := rfl
@[simp] theorem returned_bringUpReturning (r : OpResult) (s : State) : (returned r s).bringUpReturning = s.bringUpReturning := rfl
@[simp] theorem returned_tr (r : OpResult) (s : State) : (returned r s).tr = s.tr := rfl
@[simp] theorem returned_scan (r : OpResult) (s : State) : (returned r s).scan = s.scan := rfl
@[simp] theorem returned_earlierViews (r : OpResult) (s : State) : (returned r s).earlierViews = s.earlierViews := rfl
@[simp] theorem returned_requests (r : OpResult) (s : State) : (returned r s).requests = s.requests := rfl
@[simp] theorem returned_turns (r : OpResult) (s : State) : (returned r s).turns = s.turns := rfl
@[simp] theorem returned_acks (r : OpResult) (s : State) : (returned r s).acks = s.acks := rfl
@[simp] theorem returned_pixIfAnswers (r : OpResult) (s : State) : (returned r s).pixIfAnswers = s.pixIfAnswers := rfl
@[simp] theorem returned_allocAnswers (r : OpResult) (s : State) : (returned r s).allocAnswers = s.allocAnswers := rfl
@[simp] theorem returned_draws (r : OpResult) (s : State) : (returned r s).draws = s.draws := rfl
@[simp] theorem returned_lastResult (r : OpResult) (s : State) : (returned r s).lastResult = some r := rfl

/-! `raiseError`. -/

@[simp] theorem raiseError_params (e : Err) (s : State) : (raiseError e s).params = s.params := rfl
@[simp] theorem raiseError_expMirror (e : Err) (s : State) : (raiseError e s).expMirror = s.expMirror := rfl
@[simp] theorem raiseError_expInitialized (e : Err) (s : State) : (raiseError e s).expInitialized = s.expInitialized := rfl
@[simp] theorem raiseError_expHwOut (e : Err) (s : State) : (raiseError e s).expHwOut = s.expHwOut := rfl
@[simp] theorem raiseError_expHwDir (e : Err) (s : State) : (raiseError e s).expHwDir = s.expHwDir := rfl
@[simp] theorem raiseError_linkConfigured (e : Err) (s : State) : (raiseError e s).linkConfigured = s.linkConfigured := rfl
@[simp] theorem raiseError_clk (e : Err) (s : State) : (raiseError e s).clk = s.clk := rfl
@[simp] theorem raiseError_sda (e : Err) (s : State) : (raiseError e s).sda = s.sda := rfl
@[simp] theorem raiseError_bl (e : Err) (s : State) : (raiseError e s).bl = s.bl := rfl
@[simp] theorem raiseError_ppIndex (e : Err) (s : State) : (raiseError e s).ppIndex = s.ppIndex := rfl
@[simp] theorem raiseError_ppState (e : Err) (s : State) : (raiseError e s).ppState = s.ppState := rfl
@[simp] theorem raiseError_ppDone (e : Err) (s : State) : (raiseError e s).ppDone = s.ppDone := rfl
@[simp] theorem raiseError_tsState (e : Err) (s : State) : (raiseError e s).tsState = s.tsState := rfl
@[simp] theorem raiseError_tsCfg (e : Err) (s : State) : (raiseError e s).tsCfg = s.tsCfg := rfl
@[simp] theorem raiseError_hcnt (e : Err) (s : State) : (raiseError e s).hcnt = s.hcnt := rfl
@[simp] theorem raiseError_vcnt (e : Err) (s : State) : (raiseError e s).vcnt = s.vcnt := rfl
@[simp] theorem raiseError_fb0 (e : Err) (s : State) : (raiseError e s).fb0 = s.fb0 := rfl
@[simp] theorem raiseError_fb1 (e : Err) (s : State) : (raiseError e s).fb1 = s.fb1 := rfl
@[simp] theorem raiseError_front (e : Err) (s : State) : (raiseError e s).front = s.front := rfl
@[simp] theorem raiseError_fbPool (e : Err) (s : State) : (raiseError e s).fbPool = s.fbPool := rfl
@[simp] theorem raiseError_flipPending (e : Err) (s : State) : (raiseError e s).flipPending = s.flipPending := rfl
@[simp] theorem raiseError_flipRect (e : Err) (s : State) : (raiseError e s).flipRect = s.flipRect := rfl
@[simp] theorem raiseError_frameNo (e : Err) (s : State) : (raiseError e s).frameNo = s.frameNo := rfl
@[simp] theorem raiseError_panelReady (e : Err) (s : State) : (raiseError e s).panelReady = s.panelReady := rfl
@[simp] theorem raiseError_flush (e : Err) (s : State) : (raiseError e s).flush = s.flush := rfl
@[simp] theorem raiseError_bringupError (e : Err) (s : State) : (raiseError e s).bringupError = s.bringupError := rfl
@[simp] theorem raiseError_bringUpReturning (e : Err) (s : State) : (raiseError e s).bringUpReturning = s.bringUpReturning := rfl
@[simp] theorem raiseError_tr (e : Err) (s : State) : (raiseError e s).tr = s.tr := rfl
@[simp] theorem raiseError_scan (e : Err) (s : State) : (raiseError e s).scan = s.scan := rfl
@[simp] theorem raiseError_earlierViews (e : Err) (s : State) : (raiseError e s).earlierViews = s.earlierViews := rfl
@[simp] theorem raiseError_requests (e : Err) (s : State) : (raiseError e s).requests = s.requests := rfl
@[simp] theorem raiseError_turns (e : Err) (s : State) : (raiseError e s).turns = s.turns := rfl
@[simp] theorem raiseError_acks (e : Err) (s : State) : (raiseError e s).acks = s.acks := rfl
@[simp] theorem raiseError_pixIfAnswers (e : Err) (s : State) : (raiseError e s).pixIfAnswers = s.pixIfAnswers := rfl
@[simp] theorem raiseError_allocAnswers (e : Err) (s : State) : (raiseError e s).allocAnswers = s.allocAnswers := rfl
@[simp] theorem raiseError_draws (e : Err) (s : State) : (raiseError e s).draws = s.draws := rfl
@[simp] theorem raiseError_lastResult (e : Err) (s : State) : (raiseError e s).lastResult = some (.error e) := rfl

/-! `afterAcks`. -/

@[simp] theorem afterAcks_params (n : Nat) (s : State) : (afterAcks n s).params = s.params := rfl
@[simp] theorem afterAcks_expMirror (n : Nat) (s : State) : (afterAcks n s).expMirror = s.expMirror := rfl
@[simp] theorem afterAcks_expInitialized (n : Nat) (s : State) : (afterAcks n s).expInitialized = s.expInitialized := rfl
@[simp] theorem afterAcks_expHwOut (n : Nat) (s : State) : (afterAcks n s).expHwOut = s.expHwOut := rfl
@[simp] theorem afterAcks_expHwDir (n : Nat) (s : State) : (afterAcks n s).expHwDir = s.expHwDir := rfl
@[simp] theorem afterAcks_linkConfigured (n : Nat) (s : State) : (afterAcks n s).linkConfigured = s.linkConfigured := rfl
@[simp] theorem afterAcks_clk (n : Nat) (s : State) : (afterAcks n s).clk = s.clk := rfl
@[simp] theorem afterAcks_sda (n : Nat) (s : State) : (afterAcks n s).sda = s.sda := rfl
@[simp] theorem afterAcks_bl (n : Nat) (s : State) : (afterAcks n s).bl = s.bl := rfl
@[simp] theorem afterAcks_ppIndex (n : Nat) (s : State) : (afterAcks n s).ppIndex = s.ppIndex := rfl
@[simp] theorem afterAcks_ppState (n : Nat) (s : State) : (afterAcks n s).ppState = s.ppState := rfl
@[simp] theorem afterAcks_ppDone (n : Nat) (s : State) : (afterAcks n s).ppDone = s.ppDone := rfl
@[simp] theorem afterAcks_tsState (n : Nat) (s : State) : (afterAcks n s).tsState = s.tsState := rfl
@[simp] theorem afterAcks_tsCfg (n : Nat) (s : State) : (afterAcks n s).tsCfg = s.tsCfg := rfl
@[simp] theorem afterAcks_hcnt (n : Nat) (s : State) : (afterAcks n s).hcnt = s.hcnt := rfl
@[simp] theorem afterAcks_vcnt (n : Nat) (s : State) : (afterAcks n s).vcnt = s.vcnt := rfl
@[simp] theorem afterAcks_fb0 (n : Nat) (s : State) : (afterAcks n s).fb0 = s.fb0 := rfl
@[simp] theorem afterAcks_fb1 (n : Nat) (s : State) : (afterAcks n s).fb1 = s.fb1 := rfl
@[simp] theorem afterAcks_front (n : Nat) (s : State) : (afterAcks n s).front = s.front := rfl
@[simp] theorem afterAcks_fbPool (n : Nat) (s : State) : (afterAcks n s).fbPool = s.fbPool := rfl
@[simp] theorem afterAcks_flipPending (n : Nat) (s : State) : (afterAcks n s).flipPending = s.flipPending := rfl
@[simp] theorem afterAcks_flipRect (n : Nat) (s : State) : (afterAcks n s).flipRect = s.flipRect := rfl
@[simp] theorem afterAcks_frameNo (n : Nat) (s : State) : (afterAcks n s).frameNo = s.frameNo := rfl
@[simp] theorem afterAcks_panelReady (n : Nat) (s : State) : (afterAcks n s).panelReady = s.panelReady := rfl
@[simp] theorem afterAcks_flush (n : Nat) (s : State) : (afterAcks n s).flush = s.flush := rfl
@[simp] theorem afterAcks_bringupError (n : Nat) (s : State) : (afterAcks n s).bringupError = s.bringupError := rfl
@[simp] theorem afterAcks_bringUpReturning (n : Nat) (s : State) : (afterAcks n s).bringUpReturning = s.bringUpReturning := rfl
@[simp] theorem afterAcks_tr (n : Nat) (s : State) : (afterAcks n s).tr = s.tr := rfl
@[simp] theorem afterAcks_scan (n : Nat) (s : State) : (afterAcks n s).scan = s.scan := rfl
@[simp] theorem afterAcks_earlierViews (n : Nat) (s : State) : (afterAcks n s).earlierViews = s.earlierViews := rfl
@[simp] theorem afterAcks_requests (n : Nat) (s : State) : (afterAcks n s).requests = s.requests := rfl
@[simp] theorem afterAcks_turns (n : Nat) (s : State) : (afterAcks n s).turns = s.turns := rfl
@[simp] theorem afterAcks_acks (n : Nat) (s : State) : (afterAcks n s).acks = s.acks.drop n := rfl
@[simp] theorem afterAcks_pixIfAnswers (n : Nat) (s : State) : (afterAcks n s).pixIfAnswers = s.pixIfAnswers := rfl
@[simp] theorem afterAcks_allocAnswers (n : Nat) (s : State) : (afterAcks n s).allocAnswers = s.allocAnswers := rfl
@[simp] theorem afterAcks_draws (n : Nat) (s : State) : (afterAcks n s).draws = s.draws + (n - s.acks.length) := rfl
@[simp] theorem afterAcks_lastResult (n : Nat) (s : State) : (afterAcks n s).lastResult = s.lastResult := rfl

/-! `afterPixIf`. -/

@[simp] theorem afterPixIf_params (s : State) : (afterPixIf s).params = s.params := rfl
@[simp] theorem afterPixIf_expMirror (s : State) : (afterPixIf s).expMirror = s.expMirror := rfl
@[simp] theorem afterPixIf_expInitialized (s : State) : (afterPixIf s).expInitialized = s.expInitialized := rfl
@[simp] theorem afterPixIf_expHwOut (s : State) : (afterPixIf s).expHwOut = s.expHwOut := rfl
@[simp] theorem afterPixIf_expHwDir (s : State) : (afterPixIf s).expHwDir = s.expHwDir := rfl
@[simp] theorem afterPixIf_linkConfigured (s : State) : (afterPixIf s).linkConfigured = s.linkConfigured := rfl
@[simp] theorem afterPixIf_clk (s : State) : (afterPixIf s).clk = s.clk := rfl
@[simp] theorem afterPixIf_sda (s : State) : (afterPixIf s).sda = s.sda := rfl
@[simp] theorem afterPixIf_bl (s : State) : (afterPixIf s).bl = s.bl := rfl
@[simp] theorem afterPixIf_ppIndex (s : State) : (afterPixIf s).ppIndex = s.ppIndex := rfl
@[simp] theorem afterPixIf_ppState (s : State) : (afterPixIf s).ppState = s.ppState := rfl
@[simp] theorem afterPixIf_ppDone (s : State) : (afterPixIf s).ppDone = s.ppDone := rfl
@[simp] theorem afterPixIf_tsState (s : State) : (afterPixIf s).tsState = s.tsState := rfl
@[simp] theorem afterPixIf_tsCfg (s : State) : (afterPixIf s).tsCfg = s.tsCfg := rfl
@[simp] theorem afterPixIf_hcnt (s : State) : (afterPixIf s).hcnt = s.hcnt := rfl
@[simp] theorem afterPixIf_vcnt (s : State) : (afterPixIf s).vcnt = s.vcnt := rfl
@[simp] theorem afterPixIf_fb0 (s : State) : (afterPixIf s).fb0 = s.fb0 := rfl
@[simp] theorem afterPixIf_fb1 (s : State) : (afterPixIf s).fb1 = s.fb1 := rfl
@[simp] theorem afterPixIf_front (s : State) : (afterPixIf s).front = s.front := rfl
@[simp] theorem afterPixIf_fbPool (s : State) : (afterPixIf s).fbPool = s.fbPool := rfl
@[simp] theorem afterPixIf_flipPending (s : State) : (afterPixIf s).flipPending = s.flipPending := rfl
@[simp] theorem afterPixIf_flipRect (s : State) : (afterPixIf s).flipRect = s.flipRect := rfl
@[simp] theorem afterPixIf_frameNo (s : State) : (afterPixIf s).frameNo = s.frameNo := rfl
@[simp] theorem afterPixIf_panelReady (s : State) : (afterPixIf s).panelReady = s.panelReady := rfl
@[simp] theorem afterPixIf_flush (s : State) : (afterPixIf s).flush = s.flush := rfl
@[simp] theorem afterPixIf_bringupError (s : State) : (afterPixIf s).bringupError = s.bringupError := rfl
@[simp] theorem afterPixIf_bringUpReturning (s : State) : (afterPixIf s).bringUpReturning = s.bringUpReturning := rfl
@[simp] theorem afterPixIf_tr (s : State) : (afterPixIf s).tr = s.tr := rfl
@[simp] theorem afterPixIf_scan (s : State) : (afterPixIf s).scan = s.scan := rfl
@[simp] theorem afterPixIf_earlierViews (s : State) : (afterPixIf s).earlierViews = s.earlierViews := rfl
@[simp] theorem afterPixIf_requests (s : State) : (afterPixIf s).requests = s.requests := rfl
@[simp] theorem afterPixIf_turns (s : State) : (afterPixIf s).turns = s.turns := rfl
@[simp] theorem afterPixIf_acks (s : State) : (afterPixIf s).acks = s.acks := rfl
@[simp] theorem afterPixIf_pixIfAnswers (s : State) : (afterPixIf s).pixIfAnswers = s.pixIfAnswers.drop 1 := rfl
@[simp] theorem afterPixIf_allocAnswers (s : State) : (afterPixIf s).allocAnswers = s.allocAnswers := rfl
@[simp] theorem afterPixIf_draws (s : State) : (afterPixIf s).draws = s.draws + (1 - s.pixIfAnswers.length) := rfl
@[simp] theorem afterPixIf_lastResult (s : State) : (afterPixIf s).lastResult = s.lastResult := rfl

/-! `advanceIndex`. -/

@[simp] theorem advanceIndex_params (s : State) : (advanceIndex s).params = s.params := rfl
@[simp] theorem advanceIndex_expMirror (s : State) : (advanceIndex s).expMirror = s.expMirror := rfl
@[simp] theorem advanceIndex_expInitialized (s : State) : (advanceIndex s).expInitialized = s.expInitialized := rfl
@[simp] theorem advanceIndex_expHwOut (s : State) : (advanceIndex s).expHwOut = s.expHwOut := rfl
@[simp] theorem advanceIndex_expHwDir (s : State) : (advanceIndex s).expHwDir = s.expHwDir := rfl
@[simp] theorem advanceIndex_linkConfigured (s : State) : (advanceIndex s).linkConfigured = s.linkConfigured := rfl
@[simp] theorem advanceIndex_clk (s : State) : (advanceIndex s).clk = s.clk := rfl
@[simp] theorem advanceIndex_sda (s : State) : (advanceIndex s).sda = s.sda := rfl
@[simp] theorem advanceIndex_bl (s : State) : (advanceIndex s).bl = s.bl := rfl
@[simp] theorem advanceIndex_ppIndex (s : State) : (advanceIndex s).ppIndex = s.ppIndex + 1 := rfl
@[simp] theorem advanceIndex_ppState (s : State) : (advanceIndex s).ppState = milestoneState s.ppIndex s.params.milestones milestoneNames s.ppState := rfl
@[simp] theorem advanceIndex_ppDone (s : State) : (advanceIndex s).ppDone = s.ppDone := rfl
@[simp] theorem advanceIndex_tsState (s : State) : (advanceIndex s).tsState = s.tsState := rfl
@[simp] theorem advanceIndex_tsCfg (s : State) : (advanceIndex s).tsCfg = s.tsCfg := rfl
@[simp] theorem advanceIndex_hcnt (s : State) : (advanceIndex s).hcnt = s.hcnt := rfl
@[simp] theorem advanceIndex_vcnt (s : State) : (advanceIndex s).vcnt = s.vcnt := rfl
@[simp] theorem advanceIndex_fb0 (s : State) : (advanceIndex s).fb0 = s.fb0 := rfl
@[simp] theorem advanceIndex_fb1 (s : State) : (advanceIndex s).fb1 = s.fb1 := rfl
@[simp] theorem advanceIndex_front (s : State) : (advanceIndex s).front = s.front := rfl
@[simp] theorem advanceIndex_fbPool (s : State) : (advanceIndex s).fbPool = s.fbPool := rfl
@[simp] theorem advanceIndex_flipPending (s : State) : (advanceIndex s).flipPending = s.flipPending := rfl
@[simp] theorem advanceIndex_flipRect (s : State) : (advanceIndex s).flipRect = s.flipRect := rfl
@[simp] theorem advanceIndex_frameNo (s : State) : (advanceIndex s).frameNo = s.frameNo := rfl
@[simp] theorem advanceIndex_panelReady (s : State) : (advanceIndex s).panelReady = s.panelReady := rfl
@[simp] theorem advanceIndex_flush (s : State) : (advanceIndex s).flush = s.flush := rfl
@[simp] theorem advanceIndex_bringupError (s : State) : (advanceIndex s).bringupError = s.bringupError := rfl
@[simp] theorem advanceIndex_bringUpReturning (s : State) : (advanceIndex s).bringUpReturning = s.bringUpReturning := rfl
@[simp] theorem advanceIndex_tr (s : State) : (advanceIndex s).tr = s.tr := rfl
@[simp] theorem advanceIndex_scan (s : State) : (advanceIndex s).scan = s.scan := rfl
@[simp] theorem advanceIndex_earlierViews (s : State) : (advanceIndex s).earlierViews = s.earlierViews := rfl
@[simp] theorem advanceIndex_requests (s : State) : (advanceIndex s).requests = s.requests := rfl
@[simp] theorem advanceIndex_turns (s : State) : (advanceIndex s).turns = s.turns := rfl
@[simp] theorem advanceIndex_acks (s : State) : (advanceIndex s).acks = s.acks := rfl
@[simp] theorem advanceIndex_pixIfAnswers (s : State) : (advanceIndex s).pixIfAnswers = s.pixIfAnswers := rfl
@[simp] theorem advanceIndex_allocAnswers (s : State) : (advanceIndex s).allocAnswers = s.allocAnswers := rfl
@[simp] theorem advanceIndex_draws (s : State) : (advanceIndex s).draws = s.draws := rfl
@[simp] theorem advanceIndex_lastResult (s : State) : (advanceIndex s).lastResult = s.lastResult := rfl

/-! `startScan`. -/

@[simp] theorem startScan_params (s : State) : (startScan s).params = s.params := rfl
@[simp] theorem startScan_expMirror (s : State) : (startScan s).expMirror = s.expMirror := rfl
@[simp] theorem startScan_expInitialized (s : State) : (startScan s).expInitialized = s.expInitialized := rfl
@[simp] theorem startScan_expHwOut (s : State) : (startScan s).expHwOut = s.expHwOut := rfl
@[simp] theorem startScan_expHwDir (s : State) : (startScan s).expHwDir = s.expHwDir := rfl
@[simp] theorem startScan_linkConfigured (s : State) : (startScan s).linkConfigured = s.linkConfigured := rfl
@[simp] theorem startScan_clk (s : State) : (startScan s).clk = s.clk := rfl
@[simp] theorem startScan_sda (s : State) : (startScan s).sda = s.sda := rfl
@[simp] theorem startScan_bl (s : State) : (startScan s).bl = s.bl := rfl
@[simp] theorem startScan_ppIndex (s : State) : (startScan s).ppIndex = s.ppIndex := rfl
@[simp] theorem startScan_ppState (s : State) : (startScan s).ppState = s.ppState := rfl
@[simp] theorem startScan_ppDone (s : State) : (startScan s).ppDone = s.ppDone := rfl
@[simp] theorem startScan_tsState (s : State) : (startScan s).tsState = .running := rfl
@[simp] theorem startScan_tsCfg (s : State) : (startScan s).tsCfg = s.tsCfg := rfl
@[simp] theorem startScan_hcnt (s : State) : (startScan s).hcnt = 0 := rfl
@[simp] theorem startScan_vcnt (s : State) : (startScan s).vcnt = 0 := rfl
@[simp] theorem startScan_fb0 (s : State) : (startScan s).fb0 = s.fb0 := rfl
@[simp] theorem startScan_fb1 (s : State) : (startScan s).fb1 = s.fb1 := rfl
@[simp] theorem startScan_front (s : State) : (startScan s).front = .zero := rfl
@[simp] theorem startScan_fbPool (s : State) : (startScan s).fbPool = s.fbPool := rfl
@[simp] theorem startScan_flipPending (s : State) : (startScan s).flipPending = false := rfl
@[simp] theorem startScan_flipRect (s : State) : (startScan s).flipRect = s.flipRect := rfl
@[simp] theorem startScan_frameNo (s : State) : (startScan s).frameNo = 0 := rfl
@[simp] theorem startScan_panelReady (s : State) : (startScan s).panelReady = s.panelReady := rfl
@[simp] theorem startScan_flush (s : State) : (startScan s).flush = s.flush := rfl
@[simp] theorem startScan_bringupError (s : State) : (startScan s).bringupError = s.bringupError := rfl
@[simp] theorem startScan_bringUpReturning (s : State) : (startScan s).bringUpReturning = s.bringUpReturning := rfl
@[simp] theorem startScan_tr (s : State) : (startScan s).tr = s.tr := rfl
@[simp] theorem startScan_scan (s : State) : (startScan s).scan = s.scan := rfl
@[simp] theorem startScan_earlierViews (s : State) : (startScan s).earlierViews = [] := rfl
@[simp] theorem startScan_requests (s : State) : (startScan s).requests = s.requests := rfl
@[simp] theorem startScan_turns (s : State) : (startScan s).turns = s.turns := rfl
@[simp] theorem startScan_acks (s : State) : (startScan s).acks = s.acks := rfl
@[simp] theorem startScan_pixIfAnswers (s : State) : (startScan s).pixIfAnswers = s.pixIfAnswers := rfl
@[simp] theorem startScan_allocAnswers (s : State) : (startScan s).allocAnswers = s.allocAnswers := rfl
@[simp] theorem startScan_draws (s : State) : (startScan s).draws = s.draws := rfl
@[simp] theorem startScan_lastResult (s : State) : (startScan s).lastResult = s.lastResult := rfl

/-! `releaseBuffers`. -/

@[simp] theorem releaseBuffers_params (s : State) : (releaseBuffers s).params = s.params := rfl
@[simp] theorem releaseBuffers_expMirror (s : State) : (releaseBuffers s).expMirror = s.expMirror := rfl
@[simp] theorem releaseBuffers_expInitialized (s : State) : (releaseBuffers s).expInitialized = s.expInitialized := rfl
@[simp] theorem releaseBuffers_expHwOut (s : State) : (releaseBuffers s).expHwOut = s.expHwOut := rfl
@[simp] theorem releaseBuffers_expHwDir (s : State) : (releaseBuffers s).expHwDir = s.expHwDir := rfl
@[simp] theorem releaseBuffers_linkConfigured (s : State) : (releaseBuffers s).linkConfigured = s.linkConfigured := rfl
@[simp] theorem releaseBuffers_clk (s : State) : (releaseBuffers s).clk = s.clk := rfl
@[simp] theorem releaseBuffers_sda (s : State) : (releaseBuffers s).sda = s.sda := rfl
@[simp] theorem releaseBuffers_bl (s : State) : (releaseBuffers s).bl = s.bl := rfl
@[simp] theorem releaseBuffers_ppIndex (s : State) : (releaseBuffers s).ppIndex = s.ppIndex := rfl
@[simp] theorem releaseBuffers_ppState (s : State) : (releaseBuffers s).ppState = s.ppState := rfl
@[simp] theorem releaseBuffers_ppDone (s : State) : (releaseBuffers s).ppDone = s.ppDone := rfl
@[simp] theorem releaseBuffers_tsState (s : State) : (releaseBuffers s).tsState = s.tsState := rfl
@[simp] theorem releaseBuffers_tsCfg (s : State) : (releaseBuffers s).tsCfg = s.tsCfg := rfl
@[simp] theorem releaseBuffers_hcnt (s : State) : (releaseBuffers s).hcnt = s.hcnt := rfl
@[simp] theorem releaseBuffers_vcnt (s : State) : (releaseBuffers s).vcnt = s.vcnt := rfl
@[simp] theorem releaseBuffers_fb0 (s : State) : (releaseBuffers s).fb0 = none := rfl
@[simp] theorem releaseBuffers_fb1 (s : State) : (releaseBuffers s).fb1 = none := rfl
@[simp] theorem releaseBuffers_front (s : State) : (releaseBuffers s).front = s.front := rfl
@[simp] theorem releaseBuffers_fbPool (s : State) : (releaseBuffers s).fbPool = s.fbPool := rfl
@[simp] theorem releaseBuffers_flipPending (s : State) : (releaseBuffers s).flipPending = s.flipPending := rfl
@[simp] theorem releaseBuffers_flipRect (s : State) : (releaseBuffers s).flipRect = s.flipRect := rfl
@[simp] theorem releaseBuffers_frameNo (s : State) : (releaseBuffers s).frameNo = s.frameNo := rfl
@[simp] theorem releaseBuffers_panelReady (s : State) : (releaseBuffers s).panelReady = s.panelReady := rfl
@[simp] theorem releaseBuffers_flush (s : State) : (releaseBuffers s).flush = s.flush := rfl
@[simp] theorem releaseBuffers_bringupError (s : State) : (releaseBuffers s).bringupError = s.bringupError := rfl
@[simp] theorem releaseBuffers_bringUpReturning (s : State) : (releaseBuffers s).bringUpReturning = s.bringUpReturning := rfl
@[simp] theorem releaseBuffers_tr (s : State) : (releaseBuffers s).tr = s.tr := rfl
@[simp] theorem releaseBuffers_scan (s : State) : (releaseBuffers s).scan = s.scan := rfl
@[simp] theorem releaseBuffers_earlierViews (s : State) : (releaseBuffers s).earlierViews = s.earlierViews := rfl
@[simp] theorem releaseBuffers_requests (s : State) : (releaseBuffers s).requests = s.requests := rfl
@[simp] theorem releaseBuffers_turns (s : State) : (releaseBuffers s).turns = s.turns := rfl
@[simp] theorem releaseBuffers_acks (s : State) : (releaseBuffers s).acks = s.acks := rfl
@[simp] theorem releaseBuffers_pixIfAnswers (s : State) : (releaseBuffers s).pixIfAnswers = s.pixIfAnswers := rfl
@[simp] theorem releaseBuffers_allocAnswers (s : State) : (releaseBuffers s).allocAnswers = s.allocAnswers := rfl
@[simp] theorem releaseBuffers_draws (s : State) : (releaseBuffers s).draws = s.draws := rfl
@[simp] theorem releaseBuffers_lastResult (s : State) : (releaseBuffers s).lastResult = s.lastResult := rfl

/-! `returnReady`. -/

@[simp] theorem returnReady_params (s : State) : (returnReady s).params = s.params := rfl
@[simp] theorem returnReady_expMirror (s : State) : (returnReady s).expMirror = s.expMirror := rfl
@[simp] theorem returnReady_expInitialized (s : State) : (returnReady s).expInitialized = s.expInitialized := rfl
@[simp] theorem returnReady_expHwOut (s : State) : (returnReady s).expHwOut = s.expHwOut := rfl
@[simp] theorem returnReady_expHwDir (s : State) : (returnReady s).expHwDir = s.expHwDir := rfl
@[simp] theorem returnReady_linkConfigured (s : State) : (returnReady s).linkConfigured = s.linkConfigured := rfl
@[simp] theorem returnReady_clk (s : State) : (returnReady s).clk = s.clk := rfl
@[simp] theorem returnReady_sda (s : State) : (returnReady s).sda = s.sda := rfl
@[simp] theorem returnReady_bl (s : State) : (returnReady s).bl = s.bl := rfl
@[simp] theorem returnReady_ppIndex (s : State) : (returnReady s).ppIndex = s.ppIndex := rfl
@[simp] theorem returnReady_ppState (s : State) : (returnReady s).ppState = s.ppState := rfl
@[simp] theorem returnReady_ppDone (s : State) : (returnReady s).ppDone = s.ppDone := rfl
@[simp] theorem returnReady_tsState (s : State) : (returnReady s).tsState = s.tsState := rfl
@[simp] theorem returnReady_tsCfg (s : State) : (returnReady s).tsCfg = s.tsCfg := rfl
@[simp] theorem returnReady_hcnt (s : State) : (returnReady s).hcnt = s.hcnt := rfl
@[simp] theorem returnReady_vcnt (s : State) : (returnReady s).vcnt = s.vcnt := rfl
@[simp] theorem returnReady_fb0 (s : State) : (returnReady s).fb0 = s.fb0 := rfl
@[simp] theorem returnReady_fb1 (s : State) : (returnReady s).fb1 = s.fb1 := rfl
@[simp] theorem returnReady_front (s : State) : (returnReady s).front = s.front := rfl
@[simp] theorem returnReady_fbPool (s : State) : (returnReady s).fbPool = s.fbPool := rfl
@[simp] theorem returnReady_flipPending (s : State) : (returnReady s).flipPending = s.flipPending := rfl
@[simp] theorem returnReady_flipRect (s : State) : (returnReady s).flipRect = s.flipRect := rfl
@[simp] theorem returnReady_frameNo (s : State) : (returnReady s).frameNo = s.frameNo := rfl
@[simp] theorem returnReady_panelReady (s : State) : (returnReady s).panelReady = true := rfl
@[simp] theorem returnReady_flush (s : State) : (returnReady s).flush = s.flush := rfl
@[simp] theorem returnReady_bringupError (s : State) : (returnReady s).bringupError = s.bringupError := rfl
@[simp] theorem returnReady_bringUpReturning (s : State) : (returnReady s).bringUpReturning = false := rfl
@[simp] theorem returnReady_tr (s : State) : (returnReady s).tr = s.tr := rfl
@[simp] theorem returnReady_scan (s : State) : (returnReady s).scan = s.scan := rfl
@[simp] theorem returnReady_earlierViews (s : State) : (returnReady s).earlierViews = s.earlierViews := rfl
@[simp] theorem returnReady_requests (s : State) : (returnReady s).requests = s.requests := rfl
@[simp] theorem returnReady_turns (s : State) : (returnReady s).turns = s.turns := rfl
@[simp] theorem returnReady_acks (s : State) : (returnReady s).acks = s.acks := rfl
@[simp] theorem returnReady_pixIfAnswers (s : State) : (returnReady s).pixIfAnswers = s.pixIfAnswers := rfl
@[simp] theorem returnReady_allocAnswers (s : State) : (returnReady s).allocAnswers = s.allocAnswers := rfl
@[simp] theorem returnReady_draws (s : State) : (returnReady s).draws = s.draws := rfl
@[simp] theorem returnReady_lastResult (s : State) : (returnReady s).lastResult = some .ready := rfl

/-! `endFlush`. -/

@[simp] theorem endFlush_params (s : State) : (endFlush s).params = s.params := rfl
@[simp] theorem endFlush_expMirror (s : State) : (endFlush s).expMirror = s.expMirror := rfl
@[simp] theorem endFlush_expInitialized (s : State) : (endFlush s).expInitialized = s.expInitialized := rfl
@[simp] theorem endFlush_expHwOut (s : State) : (endFlush s).expHwOut = s.expHwOut := rfl
@[simp] theorem endFlush_expHwDir (s : State) : (endFlush s).expHwDir = s.expHwDir := rfl
@[simp] theorem endFlush_linkConfigured (s : State) : (endFlush s).linkConfigured = s.linkConfigured := rfl
@[simp] theorem endFlush_clk (s : State) : (endFlush s).clk = s.clk := rfl
@[simp] theorem endFlush_sda (s : State) : (endFlush s).sda = s.sda := rfl
@[simp] theorem endFlush_bl (s : State) : (endFlush s).bl = s.bl := rfl
@[simp] theorem endFlush_ppIndex (s : State) : (endFlush s).ppIndex = s.ppIndex := rfl
@[simp] theorem endFlush_ppState (s : State) : (endFlush s).ppState = s.ppState := rfl
@[simp] theorem endFlush_ppDone (s : State) : (endFlush s).ppDone = s.ppDone := rfl
@[simp] theorem endFlush_tsState (s : State) : (endFlush s).tsState = s.tsState := rfl
@[simp] theorem endFlush_tsCfg (s : State) : (endFlush s).tsCfg = s.tsCfg := rfl
@[simp] theorem endFlush_hcnt (s : State) : (endFlush s).hcnt = s.hcnt := rfl
@[simp] theorem endFlush_vcnt (s : State) : (endFlush s).vcnt = s.vcnt := rfl
@[simp] theorem endFlush_fb0 (s : State) : (endFlush s).fb0 = s.fb0 := rfl
@[simp] theorem endFlush_fb1 (s : State) : (endFlush s).fb1 = s.fb1 := rfl
@[simp] theorem endFlush_front (s : State) : (endFlush s).front = s.front := rfl
@[simp] theorem endFlush_fbPool (s : State) : (endFlush s).fbPool = s.fbPool := rfl
@[simp] theorem endFlush_flipPending (s : State) : (endFlush s).flipPending = s.flipPending := rfl
@[simp] theorem endFlush_flipRect (s : State) : (endFlush s).flipRect = s.flipRect := rfl
@[simp] theorem endFlush_frameNo (s : State) : (endFlush s).frameNo = s.frameNo := rfl
@[simp] theorem endFlush_panelReady (s : State) : (endFlush s).panelReady = s.panelReady := rfl
@[simp] theorem endFlush_flush (s : State) : (endFlush s).flush = none := rfl
@[simp] theorem endFlush_bringupError (s : State) : (endFlush s).bringupError = s.bringupError := rfl
@[simp] theorem endFlush_bringUpReturning (s : State) : (endFlush s).bringUpReturning = s.bringUpReturning := rfl
@[simp] theorem endFlush_tr (s : State) : (endFlush s).tr = s.tr := rfl
@[simp] theorem endFlush_scan (s : State) : (endFlush s).scan = s.scan := rfl
@[simp] theorem endFlush_earlierViews (s : State) : (endFlush s).earlierViews = s.earlierViews := rfl
@[simp] theorem endFlush_requests (s : State) : (endFlush s).requests = s.requests := rfl
@[simp] theorem endFlush_turns (s : State) : (endFlush s).turns = s.turns := rfl
@[simp] theorem endFlush_acks (s : State) : (endFlush s).acks = s.acks := rfl
@[simp] theorem endFlush_pixIfAnswers (s : State) : (endFlush s).pixIfAnswers = s.pixIfAnswers := rfl
@[simp] theorem endFlush_allocAnswers (s : State) : (endFlush s).allocAnswers = s.allocAnswers := rfl
@[simp] theorem endFlush_draws (s : State) : (endFlush s).draws = s.draws := rfl
@[simp] theorem endFlush_lastResult (s : State) : (endFlush s).lastResult = some .ok := rfl

/-! `flushAt`. -/

@[simp] theorem flushAt_params (job : FlushJob) (ph : FlushPhase) (s : State) :
    (flushAt job ph s).params = s.params := rfl
@[simp] theorem flushAt_expMirror (job : FlushJob) (ph : FlushPhase) (s : State) :
    (flushAt job ph s).expMirror = s.expMirror := rfl
@[simp] theorem flushAt_expInitialized (job : FlushJob) (ph : FlushPhase) (s : State) :
    (flushAt job ph s).expInitialized = s.expInitialized := rfl
@[simp] theorem flushAt_expHwOut (job : FlushJob) (ph : FlushPhase) (s : State) :
    (flushAt job ph s).expHwOut = s.expHwOut := rfl
@[simp] theorem flushAt_expHwDir (job : FlushJob) (ph : FlushPhase) (s : State) :
    (flushAt job ph s).expHwDir = s.expHwDir := rfl
@[simp] theorem flushAt_linkConfigured (job : FlushJob) (ph : FlushPhase) (s : State) :
    (flushAt job ph s).linkConfigured = s.linkConfigured := rfl
@[simp] theorem flushAt_clk (job : FlushJob) (ph : FlushPhase) (s : State) :
    (flushAt job ph s).clk = s.clk := rfl
@[simp] theorem flushAt_sda (job : FlushJob) (ph : FlushPhase) (s : State) :
    (flushAt job ph s).sda = s.sda := rfl
@[simp] theorem flushAt_bl (job : FlushJob) (ph : FlushPhase) (s : State) :
    (flushAt job ph s).bl = s.bl := rfl
@[simp] theorem flushAt_ppIndex (job : FlushJob) (ph : FlushPhase) (s : State) :
    (flushAt job ph s).ppIndex = s.ppIndex := rfl
@[simp] theorem flushAt_ppState (job : FlushJob) (ph : FlushPhase) (s : State) :
    (flushAt job ph s).ppState = s.ppState := rfl
@[simp] theorem flushAt_ppDone (job : FlushJob) (ph : FlushPhase) (s : State) :
    (flushAt job ph s).ppDone = s.ppDone := rfl
@[simp] theorem flushAt_tsState (job : FlushJob) (ph : FlushPhase) (s : State) :
    (flushAt job ph s).tsState = s.tsState := rfl
@[simp] theorem flushAt_tsCfg (job : FlushJob) (ph : FlushPhase) (s : State) :
    (flushAt job ph s).tsCfg = s.tsCfg := rfl
@[simp] theorem flushAt_hcnt (job : FlushJob) (ph : FlushPhase) (s : State) :
    (flushAt job ph s).hcnt = s.hcnt := rfl
@[simp] theorem flushAt_vcnt (job : FlushJob) (ph : FlushPhase) (s : State) :
    (flushAt job ph s).vcnt = s.vcnt := rfl
@[simp] theorem flushAt_fb0 (job : FlushJob) (ph : FlushPhase) (s : State) :
    (flushAt job ph s).fb0 = s.fb0 := rfl
@[simp] theorem flushAt_fb1 (job : FlushJob) (ph : FlushPhase) (s : State) :
    (flushAt job ph s).fb1 = s.fb1 := rfl
@[simp] theorem flushAt_front (job : FlushJob) (ph : FlushPhase) (s : State) :
    (flushAt job ph s).front = s.front := rfl
@[simp] theorem flushAt_fbPool (job : FlushJob) (ph : FlushPhase) (s : State) :
    (flushAt job ph s).fbPool = s.fbPool := rfl
@[simp] theorem flushAt_flipPending (job : FlushJob) (ph : FlushPhase) (s : State) :
    (flushAt job ph s).flipPending = s.flipPending := rfl
@[simp] theorem flushAt_flipRect (job : FlushJob) (ph : FlushPhase) (s : State) :
    (flushAt job ph s).flipRect = s.flipRect := rfl
@[simp] theorem flushAt_frameNo (job : FlushJob) (ph : FlushPhase) (s : State) :
    (flushAt job ph s).frameNo = s.frameNo := rfl
@[simp] theorem flushAt_panelReady (job : FlushJob) (ph : FlushPhase) (s : State) :
    (flushAt job ph s).panelReady = s.panelReady := rfl
@[simp] theorem flushAt_flush (job : FlushJob) (ph : FlushPhase) (s : State) :
    (flushAt job ph s).flush = some { job with phase := ph } := rfl
@[simp] theorem flushAt_bringupError (job : FlushJob) (ph : FlushPhase) (s : State) :
    (flushAt job ph s).bringupError = s.bringupError := rfl
@[simp] theorem flushAt_bringUpReturning (job : FlushJob) (ph : FlushPhase) (s : State) :
    (flushAt job ph s).bringUpReturning = s.bringUpReturning := rfl
@[simp] theorem flushAt_tr (job : FlushJob) (ph : FlushPhase) (s : State) :
    (flushAt job ph s).tr = s.tr := rfl
@[simp] theorem flushAt_scan (job : FlushJob) (ph : FlushPhase) (s : State) :
    (flushAt job ph s).scan = s.scan := rfl
@[simp] theorem flushAt_earlierViews (job : FlushJob) (ph : FlushPhase) (s : State) :
    (flushAt job ph s).earlierViews = s.earlierViews := rfl
@[simp] theorem flushAt_requests (job : FlushJob) (ph : FlushPhase) (s : State) :
    (flushAt job ph s).requests = s.requests := rfl
@[simp] theorem flushAt_turns (job : FlushJob) (ph : FlushPhase) (s : State) :
    (flushAt job ph s).turns = s.turns := rfl
@[simp] theorem flushAt_acks (job : FlushJob) (ph : FlushPhase) (s : State) :
    (flushAt job ph s).acks = s.acks := rfl
@[simp] theorem flushAt_pixIfAnswers (job : FlushJob) (ph : FlushPhase) (s : State) :
    (flushAt job ph s).pixIfAnswers = s.pixIfAnswers := rfl
@[simp] theorem flushAt_allocAnswers (job : FlushJob) (ph : FlushPhase) (s : State) :
    (flushAt job ph s).allocAnswers = s.allocAnswers := rfl
@[simp] theorem flushAt_draws (job : FlushJob) (ph : FlushPhase) (s : State) :
    (flushAt job ph s).draws = s.draws := rfl
@[simp] theorem flushAt_lastResult (job : FlushJob) (ph : FlushPhase) (s : State) :
    (flushAt job ph s).lastResult = s.lastResult := rfl

end Sys2Proof.Machine
end

