-- ==== Sys2Proof/Laws/Ops.lean ====
section
/-! SUPPORT. What each shared operation does, said once: closed forms of the questions to the environment, of the bus
and line operations, and the ways the answers of the meanings can come about. -/

namespace Sys2Proof.Machine

/-! Questions to the environment. -/

theorem askAck_eq (s : State) : askAck s = (ackAt s 0, afterAcks 1 s) := by
  unfold askAck ackAt afterAcks
  cases h : s.acks <;> simp

theorem ackAt_afterAcks (s : State) (n k : Nat) : ackAt (afterAcks n s) k = ackAt s (n + k) := by
  simp only [ackAt, afterAcks, List.getElem?_drop, List.length_drop]
  cases h : s.acks[n + k]? with
  | some r => simp
  | none =>
    have : s.acks.length ≤ n + k := List.getElem?_eq_none_iff.1 h
    simp only [Option.getD_none]
    congr 1
    omega

theorem afterAcks_afterAcks (s : State) (n k : Nat) : afterAcks k (afterAcks n s) = afterAcks (n + k) s := by
  simp only [afterAcks, List.drop_drop, List.length_drop]
  congr 1
  omega

@[simp] theorem afterAcks_zero (s : State) : afterAcks 0 s = s := by simp [afterAcks]

/-- Answers to come depend on the scripted answers and the draw counter alone. -/
theorem ackAt_congr {s t : State} (ha : t.acks = s.acks) (hd : t.draws = s.draws) (k : Nat) :
    ackAt t k = ackAt s k := by simp [ackAt, ha, hd]

theorem askPixIf_eq (s : State) : askPixIf s = (pixIfNext s, afterPixIf s) := by
  unfold askPixIf pixIfNext afterPixIf
  cases h : s.pixIfAnswers <;> simp

/-- An `alloc` question changes the scripted answers and the draw counter only. -/
theorem askAlloc_state (pool : Pool) (s : State) :
    (askAlloc pool s).2 =
      { s with allocAnswers := (askAlloc pool s).2.allocAnswers, draws := (askAlloc pool s).2.draws } := by
  unfold askAlloc
  split <;> rfl

/-- One buffer of TS_START: from the primary pool, else from the secondary, else none. -/
theorem allocBuffer_cases (k : Buffer) (s : State) :
    ∃ a d, allocBuffer k s = (placeBuffer k .primary
          { s with allocAnswers := a, draws := d, tr := s.tr ++ roundEvents .primaryOk }, true) ∨
      allocBuffer k s = (placeBuffer k .secondary
          { s with allocAnswers := a, draws := d, tr := s.tr ++ roundEvents .secondaryOk }, true) ∨
      allocBuffer k s = ({ s with allocAnswers := a, draws := d, tr := s.tr ++ roundEvents .bothFail }, false) := by
  have h1 := askAlloc_state .primary s
  cases e1 : askAlloc .primary s with
  | mk r s1 =>
    rw [e1] at h1
    cases r with
    | ok =>
      refine ⟨s1.allocAnswers, s1.draws, .inl ?_⟩
      simp only [allocBuffer, e1]
      rw [show s1 = _ from h1]
      rfl
    | fail =>
      have h2 := askAlloc_state .secondary (emit (.alloc .primary .fail) s1)
      cases e2 : askAlloc .secondary (emit (.alloc .primary .fail) s1) with
      | mk r' s2 =>
        rw [e2] at h2
        have h3 : emit (.alloc .secondary r') s2 = { s with
            allocAnswers := s2.allocAnswers, draws := s2.draws,
            tr := s.tr ++ [.alloc .primary .fail, .alloc .secondary r'] } := by
          rw [show s2 = _ from h2, show s1 = _ from h1]
          simp [emit]
        refine ⟨s2.allocAnswers, s2.draws, ?_⟩
        cases r' with
        | ok =>
          refine .inr (.inl ?_)
          simp only [allocBuffer, e1, e2]
          rw [h3]
          rfl
        | fail =>
          refine .inr (.inr ?_)
          simp only [allocBuffer, e1, e2]
          rw [h3]
          rfl

/-- What a tick does first, in full. -/
theorem frameBoundary_eq (s : State) :
    frameBoundary s = { s with
      front := frontAfter s, flipPending := if flips s then false else s.flipPending,
      frameNo := if atBoundary s then s.frameNo + 1 else s.frameNo,
      earlierViews := if atBoundary s then [] else s.earlierViews,
      scan := s.scan ++ if flips s then [.flip] else [] } := by
  have hb : atBoundary s = decide (s.hcnt = 0 ∧ s.vcnt = 0) := by
    rw [Bool.decide_and]
    rfl
  by_cases h : s.hcnt = 0 ∧ s.vcnt = 0
  · by_cases g : s.params.streamMode = .double ∧ s.flipPending = true
    · have hf : flips s = true := by simp [flips, hb, h, g]
      simp [frameBoundary, frontAfter, hf, hb, h, g, scanEmit]
    · have hf : flips s = false := by
        simp only [flips, hb, h, and_self, decide_true, Bool.true_and]
        by_cases e : s.params.streamMode = .double <;> simp_all
      simp [frameBoundary, frontAfter, hf, hb, h, g]
  · have hf : flips s = false := by simp [flips, hb, h]
    simp [frameBoundary, frontAfter, hf, hb, h]

/-! The bus. -/

theorem expanderWrite_eq (reg : Byte) (w : Word16) (s : State) :
    expanderWrite reg w s =
      (ackAt s 0, { afterAcks 1 s with
        expHwOut := if reg = Config.expRegOut then chipAfter s.expHwOut w (ackAt s 0) else s.expHwOut,
        expHwDir := if reg = Config.expRegDir then chipAfter s.expHwDir w (ackAt s 0) else s.expHwDir,
        tr := s.tr ++ [.i2cWrite s.params.expAddr reg (lowByte w) (highByte w) (ackAt s 0)] }) := by
  have hw : joinBytes (highByte w) (lowByte w) = w := by
    refine BitVec.eq_of_getLsbD_eq fun i hi => ?_
    refine (BitVec.getLsbD_append (x := highByte w) (y := lowByte w) (i := i)).trans ?_
    split
    · simp [lowByte, *]
    · rw [highByte, BitVec.getLsbD_extractLsb', show 8 + (i - 8) = i by omega]
      simp [show i - 8 < 8 by omega]
  have hne : ¬Config.expRegOut = Config.expRegDir := by decide
  have hne' : ¬Config.expRegDir = Config.expRegOut := by decide
  simp only [expanderWrite, i2cTransaction, askAck_eq]
  cases ackAt s 0 with
  | nack => simp [chipAfter, emit, afterAcks]
  | ok =>
    by_cases ho : reg = Config.expRegOut
    · subst ho
      simp [chipWrite, chipAfter, emit, afterAcks, hw, hne]
    · by_cases hd : reg = Config.expRegDir
      · subst hd
        simp [chipWrite, chipAfter, emit, afterAcks, hw, hne']
      · simp [chipWrite, emit, afterAcks, ho, hd]

theorem probe_eq (s : State) :
    probe s = (ackAt s 0, { afterAcks 1 s with tr := s.tr ++ [.i2cProbe s.params.expAddr (ackAt s 0)] }) := by
  simp [probe, askAck_eq, emit, afterAcks, ackAt]

/-- EXP_SET on an initialised bus. -/
theorem expSet_eq {s : State} (pin : Pin) (n : Level) (h : s.expInitialized = true) :
    expSet pin n s = { afterAcks 1 s with
      expMirror := insertBit s.expMirror (pinBit s.params pin) n,
      expHwOut := chipAfter s.expHwOut (insertBit s.expMirror (pinBit s.params pin) n) (ackAt s 0),
      tr := s.tr ++ [outWrite s.params (insertBit s.expMirror (pinBit s.params pin) n) (ackAt s 0)] } := by
  simp [expSet, h, expanderWrite_eq, outWrite, Config.expRegOut, Config.expRegDir, lowByte, highByte, afterAcks, ackAt]

/-- EXP_SET on an uninitialised bus. -/
theorem expSet_uninitialised {s : State} (pin : Pin) (n : Level) (h : s.expInitialized = false) :
    expSet pin n s = s := by simp [expSet, h]

/-- What EXP_SET never touches. -/
theorem expSet_frame (pin : Pin) (n : Level) (s : State) :
    ∃ m o es a d, expSet pin n s = { s with expMirror := m, expHwOut := o, tr := s.tr ++ es, acks := a, draws := d } := by
  by_cases h : s.expInitialized = true
  · exact ⟨_, _, _, _, _, expSet_eq pin n h⟩
  · refine ⟨s.expMirror, s.expHwOut, [], s.acks, s.draws, ?_⟩
    rw [expSet_uninitialised _ _ (by simpa using h), List.append_nil]

/-! The lines. -/

/-- One bit of a frame: five events, the data line at the bit, the clock low. -/
theorem clockBit_eq (b : Level) (s : State) :
    clockBit b s = { s with
      sda := .driven b, clk := .driven false, tr := s.tr ++ bitEvents s.params.tBitUs b } := by
  simp [clockBit, delayUs, lineSet, emit, bitEvents]

/-- The bits of a frame, the last one staying on the data line. -/
theorem shiftOut_eq (bs : List Level) (b : Level) (s : State) :
    shiftOut (bs ++ [b]) s = { s with
      sda := .driven b, clk := .driven false,
      tr := s.tr ++ (bs ++ [b]).flatMap (bitEvents s.params.tBitUs) } := by
  induction bs generalizing s with
  | nil => simp [shiftOut, clockBit_eq]
  | cons c bs ih => simp [shiftOut, ih, clockBit_eq]

/-- The bits of a frame, mode bit first. -/
theorem frameBits_frame9 (m : Level) (p : Byte) : frameBits (frame9 m p) = wireBits m p := by
  have h : ∀ i, (frame9 m p).getLsbD i = if i < 8 then p.getLsbD i else (BitVec.ofBool m).getLsbD (i - 8) :=
    fun i => BitVec.getLsbD_append (x := BitVec.ofBool m) (y := p) (i := i)
  have h8 : (frame9 m p).getLsbD 8 = m := (h 8).trans (by cases m <;> rfl)
  have hk : ∀ i, i < 8 → (frame9 m p).getLsbD i = p.getLsbD i := fun i hi => (h i).trans (if_pos hi)
  simp only [frameBits, wireBits, List.map_cons, List.map_nil, h8, hk 7 (by decide), hk 6 (by decide),
    hk 5 (by decide), hk 4 (by decide), hk 3 (by decide), hk 2 (by decide), hk 1 (by decide), hk 0 (by decide)]

/-- A frame's nine bits on the lines, for any frame. -/
theorem shiftOut_frame (m : Level) (p : Byte) (s : State) :
    shiftOut (frameBits (frame9 m p)) s = { s with
      sda := .driven (p.getLsbD 0), clk := .driven false,
      tr := s.tr ++ (wireBits m p).flatMap (bitEvents s.params.tBitUs) } := by
  rw [frameBits_frame9]
  exact shiftOut_eq [m, p.getLsbD 7, p.getLsbD 6, p.getLsbD 5, p.getLsbD 4, p.getLsbD 3, p.getLsbD 2, p.getLsbD 1]
    (p.getLsbD 0) s

/-! Bits of the expander word. -/

theorem getLsbD_insertBit (w : Word16) (b : Fin 16) (v : Level) (k : Nat) (hk : k < 16) :
    (insertBit w b v).getLsbD k = if k = b.val then v else w.getLsbD k := by
  have h1 : (1#16).getLsbD (k - b.val) = decide (k - b.val = 0) := by simp [BitVec.getLsbD_one]
  cases v <;> simp only [insertBit, Bool.false_eq_true, if_false, if_true, BitVec.getLsbD_or, BitVec.getLsbD_and,
    BitVec.getLsbD_not, BitVec.getLsbD_shiftLeft, h1, hk, decide_true, Bool.true_and] <;>
    by_cases h : k = b.val <;> simp [h] <;> omega

/-- Two writes of the same bit are the last one. -/
theorem insertBit_insertBit (w : Word16) (b : Fin 16) (u v : Level) :
    insertBit (insertBit w b u) b v = insertBit w b v := by
  refine BitVec.eq_of_getLsbD_eq fun k hk => ?_
  simp only [getLsbD_insertBit _ _ _ _ hk]
  split <;> simp_all

/-- Writes of different bits commute. -/
theorem insertBit_comm (w : Word16) {b c : Fin 16} (h : b ≠ c) (u v : Level) :
    insertBit (insertBit w b u) c v = insertBit (insertBit w c v) b u := by
  refine BitVec.eq_of_getLsbD_eq fun k hk => ?_
  have : b.val ≠ c.val := fun e => h (Fin.ext e)
  simp only [getLsbD_insertBit _ _ _ _ hk]
  split <;> split <;> simp_all

/-! How an answer comes about. -/

theorem whenLinked_next {f : State → State} {s t : State} :
    whenLinked f s = .next t ↔ s.linkConfigured = true ∧ t = returned .void (f s) := by
  unfold whenLinked
  split
  · rename_i h
    simp only [h, Host.Outcome.next.injEq, true_and]
    exact eq_comm
  · rename_i h
    simp [h]

theorem whenLinked_not_fault (f : State → State) (s : State) (x : Fault) : whenLinked f s ≠ .fault x := by
  unfold whenLinked
  split <;> simp

/-- A tick answers a next state exactly when its data lines have a value, and then this one. -/
theorem tsTick_next {s t : State} :
    tsTick s = .next t ↔ ∃ d, tickData (frameBoundary s) = some d ∧
      t = scanAdvance (scanEmit (tickPix (frameBoundary s) d)
        { frameBoundary s with draws := (frameBoundary s).draws + 1 }) := by
  unfold tsTick
  cases h : tickData (frameBoundary s) with
  | none => simp [h]
  | some d => simp [h, eq_comm]

/-- The Writer's turn answers a next state in these ways only: nothing, TS_NOTIFY, the wait, the copy-back, and the
completion in either mode. -/
theorem flushContinue_next {s t : State} (h : flushContinue s = .next t) :
    t = s ∨
    (∃ job, s.flush = some job ∧ job.phase = .notify ∧ tsNotifyRefusal job.rect s = none ∧
      t = flushAt job (afterNotify s.params.streamMode) (tsNotify job.rect s)) ∨
    (∃ job f g, s.flush = some job ∧ job.phase = .flip ∧ s.flipPending = false ∧
      bufferOf s s.front = some f ∧ bufferOf s (stagingOf s) = some g ∧
      t = flushAt job .complete (setBuffer s (stagingOf s) (copyBack job.rect f g))) ∨
    (∃ job fb, s.flush = some job ∧ job.phase = .complete ∧ s.params.streamMode = .single ∧
      bufferOf s s.front = some fb ∧ t = endFlush (keepView fb s)) ∨
    (∃ job, s.flush = some job ∧ job.phase = .complete ∧ s.params.streamMode = .double ∧ t = endFlush s) := by
  unfold flushContinue at h
  split at h
  · simp_all
  · rename_i job hj
    split at h
    · unfold flushNotify at h
      split at h <;> simp_all
    · unfold flushFlip at h
      split at h
      · simp_all
      · split at h <;> simp_all
    · unfold flushComplete at h
      split at h
      · split at h <;> simp_all
      · simp_all

/-- FLUSH answers a next state in these two ways only: rejected, or started. -/
theorem execFlush_next {r : Rect} {ps : List Pixel} {s t : State} (h : execFlush r ps s = .next t) :
    s.panelReady = true ∧ s.flush = none ∧
      ((rectValid r = false ∧ t = raiseError (.invalidRegion r) s) ∨
       (∃ fb, rectValid r = true ∧ ps.length = rectWidth r * rectHeight r ∧ bufferOf s (stagingOf s) = some fb ∧
         tsNotifyRefusal r s = none ∧ t = startFlush r ps fb s)) := by
  unfold execFlush at h
  split at h
  · simp at h
  · split at h
    · simp at h
    · refine ⟨by simp_all, by simp_all [flushInFlight], ?_⟩
      split at h
      · exact .inl (by simp_all)
      · split at h
        · simp at h
        · split at h
          · simp at h
          · split at h
            · simp at h
            · exact .inr ⟨_, by simp_all, by simp_all, ‹_›, ‹_›, by simp_all⟩

/-- BRING_UP answers a next state in these two ways only: it ran, or EXP_INIT failed where stage 5a would refuse. -/
theorem execBringUp_next {s t : State} (h : execBringUp s = .next t) :
    s.panelReady = false ∧ s.bringUpReturning = false ∧ s.bringupError = none ∧
      ((tsConfigureRefusal s.tsState (timingOf s.params) s.params.dataPins s.params.ctrlPins = none ∧
          t = bringUp s) ∨
       (∃ s1 e, expInit s = (s1, some e) ∧ t = failBringUp e s1)) := by
  unfold execBringUp at h
  split at h
  · simp at h
  · refine ⟨by simp_all, by simp_all, by simp_all, ?_⟩
    split at h
    · exact .inl (by simp_all)
    · split at h
      · exact .inr ⟨_, _, ‹_›, by simp_all⟩
      · simp at h

/-- Whose turn it is changes `turns` and the draw counter only. -/
theorem nextTurn_state (s : State) : ∃ ts d, (nextTurn s).2 = { s with turns := ts, draws := d } := by
  unfold nextTurn
  cases h : s.turns with
  | cons x ts => exact ⟨ts, s.draws, rfl⟩
  | nil => exact ⟨[], s.draws + 1, rfl⟩

/-- A step is the move of one agent, on a state that differs in whose turn it is and in the draw counter only. -/
theorem step_cases (s : State) :
    ∃ ts d, step s = streamerMove { s with turns := ts, draws := d } ∨
      step s = bringUpContinue { s with turns := ts, draws := d } ∨
      step s = flushContinue { s with turns := ts, draws := d } ∨
      step s = requestMove { s with turns := ts, draws := d } := by
  obtain ⟨ts, d, h⟩ := nextTurn_state s
  refine ⟨ts, d, ?_⟩
  rw [← h]
  cases e : nextTurn s with
  | mk x u => cases x <;> simp [step, e]

/-- The host's move: it issues nothing, or a request that is refused, or one that is run; with a FLUSH in flight only a
FLUSH is run. -/
theorem requestMove_cases (s : State) :
    requestMove s = .next s ∨ (∃ e, requestMove s = .refused (.badRequest e)) ∨
      ∃ q qs i, s.bringUpReturning = false ∧ s.requests = q :: qs ∧ decode q = .ok i ∧ mayIssue i s = true ∧
        requestMove s = exec i { s with requests := qs } := by
  unfold requestMove fetchRequest
  by_cases hr : s.bringUpReturning = true
  · exact .inl (by rw [if_pos hr])
  · rw [if_neg hr]
    cases hq : s.requests with
    | nil => exact .inl rfl
    | cons q qs =>
      dsimp only
      cases hd : decode q with
      | error e => exact .inr (.inl ⟨e, rfl⟩)
      | ok i =>
        dsimp only
        by_cases hm : mayIssue i s = true
        · exact .inr (.inr ⟨q, qs, i, by simpa using hr, rfl, hd, hm, by rw [if_pos hm]⟩)
        · exact .inl (by rw [if_neg hm])

/-- While a FLUSH is in flight a step that answers a next state is a tick, the Sequencer's return, the Writer's move, or
nothing: no request is run. -/
theorem step_inFlight {s t : State} (hf : s.flush.isSome = true) (h : step s = .next t) :
    ∃ ts d, t = { s with turns := ts, draws := d } ∨
      (s.tsState = .running ∧ tsTick { s with turns := ts, draws := d } = .next t) ∨
      (s.bringUpReturning = true ∧ t = returnReady { s with turns := ts, draws := d }) ∨
      flushContinue { s with turns := ts, draws := d } = .next t := by
  obtain ⟨ts, d, e | e | e | e⟩ := step_cases s <;> rw [e] at h <;> refine ⟨ts, d, ?_⟩
  · unfold streamerMove at h
    split at h
    · exact .inr (.inl ⟨‹_›, h⟩)
    · exact .inl (by simpa using h.symm)
  · unfold bringUpContinue at h
    split at h
    · exact .inr (.inr (.inl ⟨‹_›, by simpa using h.symm⟩))
    · exact .inl (by simpa using h.symm)
  · exact .inr (.inr (.inr h))
  · obtain k | ⟨x, k⟩ | ⟨q, qs, i, -, -, -, hm, k⟩ := requestMove_cases { s with turns := ts, draws := d } <;> rw [k] at h
    · exact .inl (by simpa using h.symm)
    · cases h
    · exfalso
      simp only [mayIssue, flushInFlight, hf, Bool.not_true, Bool.or_false] at hm
      cases i <;> simp only [isFlush, Bool.false_eq_true] at hm
      obtain ⟨-, hn, -⟩ := execFlush_next h
      rw [show s.flush = none from hn] at hf
      cases hf

end Sys2Proof.Machine
end

