-- ==== Sys2Proof/Laws/Frames.lean ====
section
/-! SUPPORT. What the operations of ExpanderBus, BitBangLink and PanelProgrammer leave alone, said once for all of them:
the streaming side of the state. -/

namespace Sys2Proof.Machine

/-- From `s` to `t` nothing of the parameters, of the streamer, of the orchestrator or of the queues has changed, the
control trace has only grown, and what nothing clears has not been cleared. -/
structure LinkSide (s t : State) : Prop where
  params : t.params = s.params
  tsState : t.tsState = s.tsState
  tsCfg : t.tsCfg = s.tsCfg
  hcnt : t.hcnt = s.hcnt
  vcnt : t.vcnt = s.vcnt
  fb0 : t.fb0 = s.fb0
  fb1 : t.fb1 = s.fb1
  front : t.front = s.front
  fbPool : t.fbPool = s.fbPool
  flipPending : t.flipPending = s.flipPending
  flipRect : t.flipRect = s.flipRect
  frameNo : t.frameNo = s.frameNo
  panelReady : t.panelReady = s.panelReady
  flush : t.flush = s.flush
  bringupError : t.bringupError = s.bringupError
  bringUpReturning : t.bringUpReturning = s.bringUpReturning
  scan : t.scan = s.scan
  earlierViews : t.earlierViews = s.earlierViews
  requests : t.requests = s.requests
  turns : t.turns = s.turns
  pixIfAnswers : t.pixIfAnswers = s.pixIfAnswers
  allocAnswers : t.allocAnswers = s.allocAnswers
  tr : s.tr <+: t.tr
  expInitialized : s.expInitialized = true → t.expInitialized = true
  linkConfigured : s.linkConfigured = true → t.linkConfigured = true

theorem LinkSide.refl (s : State) : LinkSide s s := by constructor <;> simp

theorem LinkSide.trans {s t u : State} (h : LinkSide s t) (k : LinkSide t u) : LinkSide s u where
  params := k.params.trans h.params
  tsState := k.tsState.trans h.tsState
  tsCfg := k.tsCfg.trans h.tsCfg
  hcnt := k.hcnt.trans h.hcnt
  vcnt := k.vcnt.trans h.vcnt
  fb0 := k.fb0.trans h.fb0
  fb1 := k.fb1.trans h.fb1
  front := k.front.trans h.front
  fbPool := k.fbPool.trans h.fbPool
  flipPending := k.flipPending.trans h.flipPending
  flipRect := k.flipRect.trans h.flipRect
  frameNo := k.frameNo.trans h.frameNo
  panelReady := k.panelReady.trans h.panelReady
  flush := k.flush.trans h.flush
  bringupError := k.bringupError.trans h.bringupError
  bringUpReturning := k.bringUpReturning.trans h.bringUpReturning
  scan := k.scan.trans h.scan
  earlierViews := k.earlierViews.trans h.earlierViews
  requests := k.requests.trans h.requests
  turns := k.turns.trans h.turns
  pixIfAnswers := k.pixIfAnswers.trans h.pixIfAnswers
  allocAnswers := k.allocAnswers.trans h.allocAnswers
  tr := h.tr.trans k.tr
  expInitialized := fun e => k.expInitialized (h.expInitialized e)
  linkConfigured := fun e => k.linkConfigured (h.linkConfigured e)

/-- The update of any of the fields the link side writes. -/
theorem linkSide_update (s : State) (m o d : Word16) (ei lc : Bool) (c a b : Pad) (i : Nat) (n : PpState) (p : Bool)
    (es : List Event) (as : List Ack) (k : Nat) (r : Option OpResult) (he : s.expInitialized = true → ei = true)
    (hl : s.linkConfigured = true → lc = true) :
    LinkSide s { s with
      expMirror := m, expHwOut := o, expHwDir := d, expInitialized := ei, linkConfigured := lc, clk := c, sda := a,
      bl := b, ppIndex := i, ppState := n, ppDone := p, tr := s.tr ++ es, acks := as, draws := k, lastResult := r } :=
  ⟨rfl, rfl, rfl, rfl, rfl, rfl, rfl, rfl, rfl, rfl, rfl, rfl, rfl, rfl, rfl, rfl, rfl, rfl, rfl, rfl, rfl, rfl,
    List.prefix_append _ _, he, hl⟩

/-- The update of the programmer's own state. -/
theorem linkSide_programmer (s : State) (i : Nat) (n : PpState) (p : Bool) :
    LinkSide s { s with ppIndex := i, ppState := n, ppDone := p } :=
  ⟨rfl, rfl, rfl, rfl, rfl, rfl, rfl, rfl, rfl, rfl, rfl, rfl, rfl, rfl, rfl, rfl, rfl, rfl, rfl, rfl, rfl, rfl,
    List.prefix_refl _, id, id⟩

theorem linkSide_emit (e : Event) (s : State) : LinkSide s (emit e s) :=
  linkSide_update s _ _ _ _ _ _ _ _ _ _ _ [e] _ _ _ id id

theorem linkSide_returned (r : OpResult) (s : State) : LinkSide s (returned r s) := by constructor <;> simp

theorem linkSide_raiseError (e : Err) (s : State) : LinkSide s (raiseError e s) := by constructor <;> simp

theorem linkSide_afterAcks (n : Nat) (s : State) : LinkSide s (afterAcks n s) := by constructor <;> simp

theorem linkSide_probe (s : State) : LinkSide s (probe s).2 := by
  rw [probe_eq]
  exact linkSide_update s _ _ _ _ _ _ _ _ _ _ _ _ _ _ _ id id

theorem linkSide_i2cTransaction (a : BusAddr) (r l h : Byte) (s : State) : LinkSide s (i2cTransaction a r l h s).2 := by
  simp only [i2cTransaction, askAck_eq]
  cases ackAt s 0 with
  | nack => exact (linkSide_afterAcks 1 s).trans (linkSide_emit _ _)
  | ok =>
    refine ((linkSide_afterAcks 1 s).trans (linkSide_emit (.i2cWrite a r l h .ok) _)).trans ?_
    simp only [chipWrite]
    split
    · split
      · constructor <;> simp
      · split
        · constructor <;> simp
        · exact .refl _
    · exact .refl _

theorem linkSide_expanderWrite (reg : Byte) (w : Word16) (s : State) : LinkSide s (expanderWrite reg w s).2 :=
  linkSide_i2cTransaction _ _ _ _ _

theorem linkSide_expSet (pin : Pin) (n : Level) (s : State) : LinkSide s (expSet pin n s) := by
  obtain ⟨m, o, es, a, d, h⟩ := expSet_frame pin n s
  rw [h]
  exact linkSide_update s _ _ _ _ _ _ _ _ _ _ _ _ _ _ _ id id

theorem linkSide_expInit (s : State) : LinkSide s (expInit s).1 := by
  have h1 := linkSide_probe s
  unfold expInit
  rcases e1 : probe s with ⟨_ | _, s1⟩ <;> rw [e1] at h1
  · have h2 := h1.trans (linkSide_expanderWrite Config.expRegDir (initDirWord s.params) s1)
    dsimp only
    rcases e2 : expanderWrite Config.expRegDir (initDirWord s.params) s1 with ⟨_ | _, s2⟩ <;> rw [e2] at h2
    · have h3 := h2.trans (linkSide_expanderWrite Config.expRegOut (initOutWord s.params) s2)
      dsimp only
      rcases e3 : expanderWrite Config.expRegOut (initOutWord s.params) s2 with ⟨_ | _, s3⟩ <;> rw [e3] at h3
      · exact h3.trans (by constructor <;> simp)
      · exact h3
    · exact h2
  · exact h1

theorem linkSide_lineSet (l : Line) (n : Level) (s : State) : LinkSide s (lineSet l n s) := by
  cases l <;> exact linkSide_update s _ _ _ _ _ _ _ _ _ _ _ [_] _ _ _ id id

theorem linkSide_delayUs (n : Nat) (s : State) : LinkSide s (delayUs n s) := linkSide_emit _ _

theorem linkSide_delayMs (n : Nat) (s : State) : LinkSide s (delayMs n s) := linkSide_emit _ _

theorem linkSide_linkInit (s : State) : LinkSide s (linkInit s) := by
  refine ((((((linkSide_emit (.pinCfg .clk) s).trans (linkSide_emit (.pinCfg .sda) _)).trans
    (linkSide_emit (.pinCfg .bl) _)).trans (linkSide_lineSet .clk false _)).trans
    (linkSide_lineSet .sda false _)).trans (linkSide_lineSet .bl false _)).trans ?_
  exact ⟨rfl, rfl, rfl, rfl, rfl, rfl, rfl, rfl, rfl, rfl, rfl, rfl, rfl, rfl, rfl, rfl, rfl, rfl, rfl, rfl, rfl, rfl,
    List.prefix_refl _, id, fun _ => rfl⟩

theorem linkSide_shiftOut (bs : List Level) (s : State) : LinkSide s (shiftOut bs s) := by
  induction bs generalizing s with
  | nil => exact .refl s
  | cons b bs ih =>
    refine LinkSide.trans ?_ (ih (clockBit b s))
    rw [clockBit_eq]
    exact linkSide_update s _ _ _ _ _ _ _ _ _ _ _ _ _ _ _ id id

theorem linkSide_xfer (m : Level) (p : Byte) (s : State) : LinkSide s (xfer m p s) :=
  ((((linkSide_expSet .cs false s).trans (linkSide_delayUs _ _)).trans (linkSide_shiftOut _ _)).trans
    (linkSide_expSet .cs true _)).trans (linkSide_delayUs _ _)

theorem linkSide_sendCommand (c : Word16) (s : State) : LinkSide s (sendCommand c s) :=
  (linkSide_xfer _ _ s).trans (linkSide_xfer _ _ _)

theorem linkSide_sendAll (bs : List Byte) (s : State) : LinkSide s (sendAll bs s) := by
  induction bs generalizing s with
  | nil => exact .refl s
  | cons b bs ih => exact (linkSide_xfer _ b s).trans (ih _)

theorem linkSide_writeReg (c : Word16) (ps : List Byte) (s : State) : LinkSide s (writeReg c ps s) :=
  (linkSide_sendCommand c s).trans (linkSide_sendAll ps _)

theorem linkSide_panelReset (s : State) : LinkSide s (panelReset s) :=
  ((linkSide_expSet .rst false s).trans (linkSide_delayMs _ _)).trans (linkSide_expSet .rst true _)

theorem linkSide_replayEntry (e : RegisterOp) (s : State) : LinkSide s (replayEntry e s) := by
  cases e with
  | write op c ps => exact linkSide_writeReg c ps s
  | delay ms => exact linkSide_delayMs ms s

theorem linkSide_replayTable (es : List RegisterOp) (s : State) : LinkSide s (replayTable es s) := by
  induction es generalizing s with
  | nil => exact .refl s
  | cons e es ih =>
    exact ((linkSide_replayEntry e s).trans (linkSide_programmer _ _ _ _)).trans (ih (advanceIndex (replayEntry e s)))

theorem linkSide_progRun (s : State) : LinkSide s (progRun s) :=
  (((linkSide_programmer s 0 .reset false).trans (linkSide_panelReset _)).trans
    (linkSide_replayTable (panelReset { s with ppDone := false, ppIndex := 0, ppState := .reset }).params.table _)).trans
      (linkSide_programmer _ _ _ true)

theorem linkSide_backlightOn (s : State) : LinkSide s (backlightOn s) := linkSide_lineSet _ _ s

theorem linkSide_bringUpPanel (s : State) : LinkSide s (bringUpPanel s) :=
  ((linkSide_linkInit s).trans (linkSide_progRun _)).trans (linkSide_backlightOn _)

theorem linkSide_finish {s : State} {x : State × Option Err} (h : LinkSide s x.1) : LinkSide s (finish x) := by
  rcases x with ⟨u, _ | e⟩
  · exact h.trans (linkSide_returned _ _)
  · exact h.trans (linkSide_raiseError _ _)

/-- The instructions of the streamer and of the orchestrator, which LinkSide is not about. -/
def streamSide : Instr → Bool
  | .tsConfigure _ _ _ | .tsStart | .tsNotify _ | .tsTick | .bringUp | .flush _ _ => true
  | .frameCmd _ | .frameData _ | .splitCmd _ _ | .i2cWrite _ _ _ _ _ | .i2cWriteDir _ _ _ _ | .i2cWriteOut _ _ _ _
  | .entryWrite _ _ _ | .entryDelay _ | .expInit | .expSet _ _ | .expGet _ | .linkInit | .sendData _ | .sendCommand _
  | .panelReset | .progRun | .backlightOn | .xfer _ _ | .lineSet _ _ | .delayUs _ | .delayMs _ | .regopWrite _ _ _
  | .regopDelay _ | .cs _ | .rst _ | .clk _ | .sda _ | .bl _ | .writeReg _ _ => false

theorem linkSide_whenLinked {f : State → State} {s t : State} (hf : LinkSide s (f s)) (h : whenLinked f s = .next t) :
    LinkSide s t := by
  rw [(whenLinked_next.1 h).2]
  exact hf.trans (linkSide_returned _ _)

theorem linkSide_busWriteRow {a : BusAddr} {w : BitVec 1} {r l h : Byte} {s t : State}
    (e : busWriteRow a w r l h s = .next t) : LinkSide s t := by
  unfold busWriteRow at e
  split at e
  · cases e
    exact (linkSide_i2cTransaction a r l h s).trans (linkSide_returned _ _)
  · cases e

/-- Every instruction but the six of the streamer and the orchestrator leaves the streaming side alone. -/
theorem exec_linkSide {i : Instr} {s t : State} (hi : streamSide i = false) (h : exec i s = .next t) : LinkSide s t := by
  cases i with
  | frameCmd p => exact linkSide_whenLinked (linkSide_xfer _ _ _) h
  | frameData p => exact linkSide_whenLinked (linkSide_xfer _ _ _) h
  | splitCmd a b => exact linkSide_whenLinked (f := fun s => xfer _ _ (xfer _ _ s)) ((linkSide_xfer _ _ _).trans (linkSide_xfer _ _ _)) h
  | i2cWrite a w r l b => exact linkSide_busWriteRow h
  | i2cWriteDir a w l b => exact linkSide_busWriteRow h
  | i2cWriteOut a w l b => exact linkSide_busWriteRow h
  | entryWrite op c ps => exact linkSide_whenLinked (linkSide_replayEntry _ _) h
  | entryDelay ms => exact linkSide_whenLinked (linkSide_replayEntry _ _) h
  | expInit => cases h; exact linkSide_finish (linkSide_expInit s)
  | expSet pin n => cases h; exact (linkSide_expSet pin n s).trans (linkSide_returned _ _)
  | expGet pin => cases h; exact linkSide_returned _ _
  | linkInit => cases h; exact (linkSide_linkInit s).trans (linkSide_returned _ _)
  | sendData b => exact linkSide_whenLinked (linkSide_xfer _ _ _) h
  | sendCommand c => exact linkSide_whenLinked (linkSide_sendCommand _ _) h
  | panelReset => exact linkSide_whenLinked (linkSide_panelReset _) h
  | progRun => exact linkSide_whenLinked (linkSide_progRun _) h
  | backlightOn => exact linkSide_whenLinked (linkSide_backlightOn _) h
  | xfer m p => exact linkSide_whenLinked (linkSide_xfer _ _ _) h
  | lineSet l n => exact linkSide_whenLinked (linkSide_lineSet _ _ _) h
  | delayUs n => exact linkSide_whenLinked (linkSide_delayUs _ _) h
  | delayMs n => exact linkSide_whenLinked (linkSide_delayMs _ _) h
  | regopWrite op c ps => exact linkSide_whenLinked (linkSide_writeReg _ _ _) h
  | regopDelay ms => exact linkSide_whenLinked (linkSide_delayMs _ _) h
  | cs n => cases h; exact (linkSide_expSet .cs n s).trans (linkSide_returned _ _)
  | rst n => cases h; exact (linkSide_expSet .rst n s).trans (linkSide_returned _ _)
  | clk n => exact linkSide_whenLinked (linkSide_lineSet _ _ _) h
  | sda n => exact linkSide_whenLinked (linkSide_lineSet _ _ _) h
  | bl n => exact linkSide_whenLinked (linkSide_lineSet _ _ _) h
  | writeReg c ps => exact linkSide_whenLinked (linkSide_writeReg _ _ _) h
  | tsConfigure _ _ _ | tsStart | tsNotify _ | tsTick | bringUp | flush _ _ => cases hi

end Sys2Proof.Machine
end

