-- ==== Sys2Proof/Laws/Memory.lean ====
section
/-! SUPPORT. The laws of framebuffer memory: a read after a write, the canonical form, and which pixels and bytes the
write of a rectangle reaches. -/

namespace Sys2Proof.Machine

/-! Cells. -/

@[simp] theorem memRead_memWrite_same (m : Memory) (x : Nat) (v : Byte) : memRead (memWrite m x v) x = some v := by
  induction m with
  | nil => simp [memWrite, memRead]
  | cons c m ih =>
    obtain ⟨a, b⟩ := c
    unfold memWrite
    split
    · simp [memRead]
    · split
      · simp [memRead]
      · simp [memRead, *]

theorem memRead_memWrite_other (m : Memory) {x y : Nat} (v : Byte) (h : y ≠ x) :
    memRead (memWrite m x v) y = memRead m y := by
  induction m with
  | nil => simp [memWrite, memRead, h]
  | cons c m ih =>
    obtain ⟨a, b⟩ := c
    unfold memWrite
    split
    · simp [memRead, h]
    · split
      · subst x
        simp [memRead, h]
      · simp [memRead, ih]

/-- Every cell after a write is the written one or an old one. -/
theorem mem_memWrite {m : Memory} {x : Nat} {v : Byte} {c : Host.Cell} (h : c ∈ memWrite m x v) :
    c = (x, v) ∨ c ∈ m := by
  induction m with
  | nil => simp_all [memWrite]
  | cons d m ih =>
    obtain ⟨a, b⟩ := d
    unfold memWrite at h
    split at h
    · simpa using h
    · split at h
      · rcases List.mem_cons.1 h with h | h
        · exact .inl h
        · exact .inr (List.mem_cons_of_mem _ h)
      · rcases List.mem_cons.1 h with h | h
        · exact .inr (h ▸ List.mem_cons_self)
        · exact (ih h).imp_right (List.mem_cons_of_mem _)

theorem memWf_memWrite {m : Memory} (x : Nat) (v : Byte) (h : memWf m = true) : memWf (memWrite m x v) = true := by
  simp only [memWf, decide_eq_true_eq] at h ⊢
  induction m with
  | nil => simp [memWrite]
  | cons d m ih =>
    obtain ⟨a, b⟩ := d
    obtain ⟨hd, hm⟩ := List.pairwise_cons.1 h
    unfold memWrite
    split
    · refine List.pairwise_cons.2 ⟨fun c hc => ?_, h⟩
      rcases List.mem_cons.1 hc with rfl | hc
      · assumption
      · exact Nat.lt_trans ‹_› (hd c hc)
    · split
      · subst x
        exact List.pairwise_cons.2 ⟨hd, hm⟩
      · refine List.pairwise_cons.2 ⟨fun c hc => ?_, ih hm⟩
        rcases mem_memWrite hc with rfl | hc
        · simp only; omega
        · exact hd c hc

/-! Words. -/

theorem getLsbD_joinBytes (hi lo : Byte) (i : Nat) :
    (joinBytes hi lo).getLsbD i = if i < 8 then lo.getLsbD i else hi.getLsbD (i - 8) :=
  BitVec.getLsbD_append (x := hi) (y := lo) (i := i)

@[simp] theorem joinBytes_halves (v : Word16) : joinBytes (highByte v) (lowByte v) = v := by
  refine BitVec.eq_of_getLsbD_eq fun i hi => ?_
  rw [getLsbD_joinBytes]
  split
  · simp [lowByte, *]
  · rw [highByte, BitVec.getLsbD_extractLsb', show 8 + (i - 8) = i by omega]
    simp [show i - 8 < 8 by omega]

@[simp] theorem lowByte_joinBytes (hi lo : Byte) : lowByte (joinBytes hi lo) = lo := by
  refine BitVec.eq_of_getLsbD_eq fun i h => ?_
  rw [lowByte, BitVec.getLsbD_extractLsb', getLsbD_joinBytes]
  simp [h]

@[simp] theorem highByte_joinBytes (hi lo : Byte) : highByte (joinBytes hi lo) = hi := by
  refine BitVec.eq_of_getLsbD_eq fun i h => ?_
  rw [highByte, BitVec.getLsbD_extractLsb', getLsbD_joinBytes]
  simp [h]

/-! Pixels. -/

theorem memRead_fbWritePixel_other (fb : Framebuffer) (i : Nat) (v : Pixel) {a : Nat} (h0 : a ≠ 2 * i)
    (h1 : a ≠ 2 * i + 1) : memRead (fbWritePixel fb i v).cells a = memRead fb.cells a := by
  simp [fbWritePixel, memRead_memWrite_other, h0, h1]

@[simp] theorem fbPixel_fbWritePixel_same (fb : Framebuffer) (i : Nat) (v : Pixel) :
    fbPixel (fbWritePixel fb i v) i = v := by
  have h : memRead (memWrite (memWrite fb.cells (2 * i) (lowByte v)) (2 * i + 1) (highByte v)) (2 * i)
      = some (lowByte v) := by
    rw [memRead_memWrite_other _ _ (by omega), memRead_memWrite_same]
  simp [fbPixel, fbByte, fbWritePixel, h]

theorem fbPixel_fbWritePixel_other (fb : Framebuffer) {i k : Nat} (v : Pixel) (h : k ≠ i) :
    fbPixel (fbWritePixel fb i v) k = fbPixel fb k := by
  simp only [fbPixel, fbByte]
  rw [memRead_fbWritePixel_other _ _ _ (by omega) (by omega),
    memRead_fbWritePixel_other _ _ _ (by omega) (by omega)]
  rfl

theorem fbWf_fbWritePixel {fb : Framebuffer} {i : Nat} (v : Pixel) (h : fbWf fb = true) (hi : i < Config.fbPixels) :
    fbWf (fbWritePixel fb i v) = true := by
  simp only [fbWf, Bool.and_eq_true, List.all_eq_true, decide_eq_true_eq] at h ⊢
  refine ⟨memWf_memWrite _ _ (memWf_memWrite _ _ h.1), fun c hc => ?_⟩
  rcases mem_memWrite hc with rfl | hc
  · simp only; omega
  · rcases mem_memWrite hc with rfl | hc
    · simp only; omega
    · exact h.2 c hc

/-! The write of a list of pixels. -/

@[simp] theorem fbWriteAll_drawn (fb : Framebuffer) (is : List Nat) (vs : List Pixel) :
    (fbWriteAll fb is vs).drawn = fb.drawn := by
  induction is generalizing fb vs with
  | nil => simp [fbWriteAll]
  | cons i is ih => cases vs <;> simp [fbWriteAll, ih, fbWritePixel]

theorem memRead_fbWriteAll_other (fb : Framebuffer) (is : List Nat) (vs : List Pixel) {a : Nat}
    (h : ∀ i ∈ is, a ≠ 2 * i ∧ a ≠ 2 * i + 1) : memRead (fbWriteAll fb is vs).cells a = memRead fb.cells a := by
  induction is generalizing fb vs with
  | nil => simp [fbWriteAll]
  | cons i is ih =>
    cases vs with
    | nil => simp [fbWriteAll]
    | cons v vs =>
      rw [fbWriteAll, ih _ _ fun j hj => h j (List.mem_cons_of_mem _ hj)]
      exact memRead_fbWritePixel_other _ _ _ (h i List.mem_cons_self).1 (h i List.mem_cons_self).2

theorem fbPixel_fbWriteAll_other (fb : Framebuffer) (is : List Nat) (vs : List Pixel) {k : Nat} (h : k ∉ is) :
    fbPixel (fbWriteAll fb is vs) k = fbPixel fb k := by
  have hb : ∀ i ∈ is, i ≠ k := fun i hi e => h (e ▸ hi)
  simp only [fbPixel, fbByte, fbWriteAll_drawn]
  rw [memRead_fbWriteAll_other _ _ _ fun i hi => ⟨by have := hb i hi; omega, by have := hb i hi; omega⟩,
    memRead_fbWriteAll_other _ _ _ fun i hi => ⟨by have := hb i hi; omega, by have := hb i hi; omega⟩]

/-- Each pixel written is there afterwards, where no index repeats. -/
theorem fbPixel_fbWriteAll (fb : Framebuffer) (is : List Nat) (vs : List Pixel) (hn : is.Nodup)
    (hl : is.length = vs.length) {n : Nat} {i : Nat} (hi : is[n]? = some i) :
    vs[n]? = some (fbPixel (fbWriteAll fb is vs) i) := by
  induction is generalizing fb vs n with
  | nil => simp at hi
  | cons j is ih =>
    cases vs with
    | nil => simp at hl
    | cons v vs =>
      obtain ⟨hj, hn⟩ := List.nodup_cons.1 hn
      rw [fbWriteAll]
      cases n with
      | zero =>
        obtain rfl : j = i := by simpa using hi
        rw [fbPixel_fbWriteAll_other _ _ _ hj]
        simp
      | succ n => simpa using ih _ vs hn (by simpa using hl) (by simpa using hi)

theorem fbWf_fbWriteAll {fb : Framebuffer} (is : List Nat) (vs : List Pixel) (h : fbWf fb = true)
    (hi : ∀ i ∈ is, i < Config.fbPixels) : fbWf (fbWriteAll fb is vs) = true := by
  induction is generalizing fb vs with
  | nil => simpa [fbWriteAll] using h
  | cons i is ih =>
    cases vs with
    | nil => simpa [fbWriteAll] using h
    | cons v vs =>
      exact ih vs (fbWf_fbWritePixel v h (hi i List.mem_cons_self)) fun j hj => hi j (List.mem_cons_of_mem _ hj)

/-! Rectangles. -/

theorem rectValid_iff (r : Rect) :
    rectValid r = true ↔ r.x0 < r.x1 ∧ r.x1 ≤ 480 ∧ r.y0 < r.y1 ∧ r.y1 ≤ 480 := by
  rw [rectValid, Bool.and_eq_true, Bool.and_eq_true, Bool.and_eq_true, decide_eq_true_iff, decide_eq_true_iff,
    decide_eq_true_iff, decide_eq_true_iff, and_assoc, and_assoc, Config.hres, Config.vres]

/-- The indices of a rectangle are those of the pixels it covers. -/
theorem mem_rectIndices (r : Rect) (k : Nat) :
    k ∈ rectIndices r ↔ ∃ x y, rectCovers r x y ∧ k = y * 480 + x := by
  simp only [rectIndices, rectHeight, rectWidth, List.mem_flatMap, List.mem_map, List.mem_range, pixelIndex,
    Config.hres, rectCovers]
  constructor
  · rintro ⟨j, hj, i, hi, rfl⟩
    exact ⟨r.x0 + i, r.y0 + j, by omega, rfl⟩
  · rintro ⟨x, y, h, rfl⟩
    exact ⟨y - r.y0, by omega, x - r.x0, by omega, by
      rw [show r.y0 + (y - r.y0) = y by omega, show r.x0 + (x - r.x0) = x by omega]⟩

theorem rectIndices_lt {r : Rect} (h : rectValid r = true) {k : Nat} (hk : k ∈ rectIndices r) :
    k < Config.fbPixels := by
  obtain ⟨x, y, hc, rfl⟩ := (mem_rectIndices r k).1 hk
  have := (rectValid_iff r).1 h
  simp only [rectCovers] at hc
  simp only [Config.fbPixels]
  omega

theorem length_rectIndices (r : Rect) : (rectIndices r).length = rectWidth r * rectHeight r := by
  simp [rectIndices, Nat.mul_comm]

/-- Element `j × w + i` is the index of `(x0 + i, y0 + j)` (R89). -/
theorem rectIndices_getElem? (r : Rect) {i j : Nat} (hi : i < rectWidth r) (hj : j < rectHeight r) :
    (rectIndices r)[j * rectWidth r + i]? = some (pixelIndex (r.x0 + i) (r.y0 + j)) := by
  have key : ∀ (n : Nat) (f : Nat → Nat → Nat) (w j i : Nat), i < w → j < n →
      ((List.range n).flatMap fun j => (List.range w).map (f j))[j * w + i]? = some (f j i) := by
    intro n
    induction n with
    | zero => intro _ _ _ _ _ h; omega
    | succ n ih =>
      intro f w j i hi hj
      rw [List.range_succ_eq_map, List.flatMap_cons, List.flatMap_map]
      cases j with
      | zero => simp [List.getElem?_append, hi]
      | succ j =>
        rw [List.getElem?_append_right (by simp; nlinarith)]
        have := ih (fun a => f (a + 1)) w j i hi (by omega)
        simp only [List.length_map, List.length_range]
        rw [show (j + 1) * w + i - w = j * w + i by rw [Nat.add_mul]; omega]
        exact this
  exact key _ (fun j i => pixelIndex (r.x0 + i) (r.y0 + j)) _ j i hi hj

/-- No index repeats in a rectangle whose columns fit in a line. -/
theorem nodup_rectIndices {r : Rect} (h : r.x1 ≤ 480) : (rectIndices r).Nodup := by
  refine List.nodup_flatMap.2 ⟨fun j _ => (List.nodup_range).map fun a b e => ?_,
    (List.nodup_range).imp_of_mem fun {a b} ha hb hab => ?_⟩
  · simp only [pixelIndex] at e; omega
  · simp only [Function.onFun, List.disjoint_left, List.mem_map, List.mem_range, rectWidth]
    rintro k ⟨i, hi, rfl⟩ ⟨i', hi', e⟩
    simp only [pixelIndex, Config.hres] at e
    omega

/-! The canonical form, kept by every operation that writes a buffer. -/

theorem optFbWf_setBuffer {s : State} {k : Buffer} {g : Framebuffer} (h0 : optFbWf s.fb0 = true)
    (h1 : optFbWf s.fb1 = true) (hg : fbWf g = true) :
    optFbWf (setBuffer s k g).fb0 = true ∧ optFbWf (setBuffer s k g).fb1 = true := by
  cases k <;> simp_all [setBuffer, optFbWf]

/-- A freshly allocated buffer lists nothing. -/
theorem fbWf_fresh (n : Nat) : fbWf { drawn := n, cells := [] } = true := rfl

/-- The rectangle write of FLUSH keeps the canonical form. -/
theorem fbWf_flush {r : Rect} {fb : Framebuffer} (ps : List Pixel) (h : fbWf fb = true) (hr : rectValid r = true) :
    fbWf (fbWriteAll fb (rectIndices r) ps) = true :=
  fbWf_fbWriteAll _ _ h fun _ hi => rectIndices_lt hr hi

/-- The copy-back of FLUSH keeps the canonical form. -/
theorem fbWf_copyBack {r : Rect} {f b : Framebuffer} (h : fbWf b = true) (hr : rectValid r = true) :
    fbWf (copyBack r f b) = true :=
  fbWf_fbWriteAll _ _ h fun _ hi => rectIndices_lt hr hi

/-- The memory of the state after reset lists nothing. -/
theorem optFbWf_resetWith (p : Params) :
    optFbWf (State.resetWith p).fb0 = true ∧ optFbWf (State.resetWith p).fb1 = true := ⟨rfl, rfl⟩

end Sys2Proof.Machine
end

