-- ==== Sys2Proof/Laws/PerInstr.lean ====
section
/-! SUPPORT. A law about each instruction as syntax: its request has its row's format, and starts with its row's number
where the row has one. -/

namespace Sys2Proof.Laws.EncodingShape

/-- The format of a row and the first word of its request: the op_id of a descriptor (R100), the kind of a record or a
pseudo-operation (log 8), none where the row has only its bits. -/
def row : Instr → Format × Option Nat
  | .frameCmd _ => (.serialFrame, none)
  | .frameData _ => (.serialFrame, none)
  | .splitCmd _ _ => (.serialPair, none)
  | .i2cWrite _ _ _ _ _ => (.busWrite, none)
  | .i2cWriteDir _ _ _ _ => (.busWrite, none)
  | .i2cWriteOut _ _ _ _ => (.busWrite, none)
  | .entryWrite _ _ _ => (.tableEntry, some 0)
  | .entryDelay _ => (.tableEntry, some 1)
  | .expInit => (.descriptor, some 0x01)
  | .expSet _ _ => (.descriptor, some 0x02)
  | .expGet _ => (.descriptor, some 0x03)
  | .linkInit => (.descriptor, some 0x10)
  | .sendData _ => (.descriptor, some 0x11)
  | .sendCommand _ => (.descriptor, some 0x12)
  | .panelReset => (.descriptor, some 0x20)
  | .progRun => (.descriptor, some 0x21)
  | .tsConfigure _ _ _ => (.descriptor, some 0x30)
  | .tsStart => (.descriptor, some 0x31)
  | .tsNotify _ => (.descriptor, some 0x32)
  | .bringUp => (.descriptor, some 0x40)
  | .backlightOn => (.descriptor, some 0x41)
  | .flush _ _ => (.descriptor, some 0x42)
  | .xfer _ _ => (.descriptor, some 0x80)
  | .lineSet _ _ => (.descriptor, some 0x81)
  | .delayUs _ => (.descriptor, some 0x82)
  | .delayMs _ => (.descriptor, some 0x83)
  | .regopWrite _ _ _ => (.descriptor, some 0x84)
  | .regopDelay _ => (.descriptor, some 0x85)
  | .tsTick => (.descriptor, some 0x86)
  | .cs _ => (.pseudo, some 0)
  | .rst _ => (.pseudo, some 3)
  | .clk _ => (.pseudo, some 1)
  | .sda _ => (.pseudo, some 2)
  | .bl _ => (.pseudo, some 4)
  | .writeReg _ _ => (.pseudo, some 5)

/-- The request of an operation has its row's format, and its row's first word. -/
def Statement (i : Instr) : Prop :=
  (encode i).format = (row i).1 ∧ ∀ n, (row i).2 = some n → (encode i).words.head? = some n

theorem frameCmd (p : Byte) : Statement (.frameCmd p) := ⟨rfl, fun _ h => nomatch h⟩

theorem frameData (p : Byte) : Statement (.frameData p) := ⟨rfl, fun _ h => nomatch h⟩

theorem splitCmd (h : Byte) (l : Byte) : Statement (.splitCmd h l) := ⟨rfl, fun _ h => nomatch h⟩

theorem i2cWrite (a : BusAddr) (w : BitVec 1) (r : Byte) (l : Byte) (h : Byte) : Statement (.i2cWrite a w r l h) := ⟨rfl, fun _ h => nomatch h⟩

theorem i2cWriteDir (a : BusAddr) (w : BitVec 1) (l : Byte) (h : Byte) : Statement (.i2cWriteDir a w l h) := ⟨rfl, fun _ h => nomatch h⟩

theorem i2cWriteOut (a : BusAddr) (w : BitVec 1) (l : Byte) (h : Byte) : Statement (.i2cWriteOut a w l h) := ⟨rfl, fun _ h => nomatch h⟩

theorem entryWrite (op : PageOp) (code : Word16) (payload : List Byte) : Statement (.entryWrite op code payload) := ⟨rfl, fun _ h => h⟩

theorem entryDelay (ms : Nat) : Statement (.entryDelay ms) := ⟨rfl, fun _ h => h⟩

theorem expInit : Statement .expInit := ⟨rfl, fun _ h => h⟩

theorem expSet (pin : Pin) (level : Level) : Statement (.expSet pin level) := ⟨rfl, fun _ h => h⟩

theorem expGet (pin : Pin) : Statement (.expGet pin) := ⟨rfl, fun _ h => h⟩

theorem linkInit : Statement .linkInit := ⟨rfl, fun _ h => h⟩

theorem sendData (byte : Byte) : Statement (.sendData byte) := ⟨rfl, fun _ h => h⟩

theorem sendCommand (code : Word16) : Statement (.sendCommand code) := ⟨rfl, fun _ h => h⟩

theorem panelReset : Statement .panelReset := ⟨rfl, fun _ h => h⟩

theorem progRun : Statement .progRun := ⟨rfl, fun _ h => h⟩

theorem tsConfigure (timing : Timing) (dataPins : DataPins) (ctrlPins : CtrlPins) : Statement (.tsConfigure timing dataPins ctrlPins) := ⟨rfl, fun _ h => h⟩

theorem tsStart : Statement .tsStart := ⟨rfl, fun _ h => h⟩

theorem tsNotify (rect : Rect) : Statement (.tsNotify rect) := ⟨rfl, fun _ h => h⟩

theorem bringUp : Statement .bringUp := ⟨rfl, fun _ h => h⟩

theorem backlightOn : Statement .backlightOn := ⟨rfl, fun _ h => h⟩

theorem flush (rect : Rect) (pixels : List Pixel) : Statement (.flush rect pixels) := ⟨rfl, fun _ h => h⟩

theorem xfer (m : Level) (p : Byte) : Statement (.xfer m p) := ⟨rfl, fun _ h => h⟩

theorem lineSet (line : Line) (n : Level) : Statement (.lineSet line n) := ⟨rfl, fun _ h => h⟩

theorem delayUs (n : Nat) : Statement (.delayUs n) := ⟨rfl, fun _ h => h⟩

theorem delayMs (n : Nat) : Statement (.delayMs n) := ⟨rfl, fun _ h => h⟩

theorem regopWrite (op : PageOp) (code : Word16) (payload : List Byte) : Statement (.regopWrite op code payload) := ⟨rfl, fun _ h => h⟩

theorem regopDelay (ms : Nat) : Statement (.regopDelay ms) := ⟨rfl, fun _ h => h⟩

theorem tsTick : Statement .tsTick := ⟨rfl, fun _ h => h⟩

theorem cs (n : Level) : Statement (.cs n) := ⟨rfl, fun _ h => h⟩

theorem rst (n : Level) : Statement (.rst n) := ⟨rfl, fun _ h => h⟩

theorem clk (n : Level) : Statement (.clk n) := ⟨rfl, fun _ h => h⟩

theorem sda (n : Level) : Statement (.sda n) := ⟨rfl, fun _ h => h⟩

theorem bl (n : Level) : Statement (.bl n) := ⟨rfl, fun _ h => h⟩

theorem writeReg (c : Word16) (ps : List Byte) : Statement (.writeReg c ps) := ⟨rfl, fun _ h => h⟩

end Sys2Proof.Laws.EncodingShape
end

