-- ==== Sys2Proof/Laws/Scan.lean ====
section
/-! SUPPORT. What a tick does, what any step does to the scan, and counting along one video frame. -/

namespace Sys2Proof.Machine

/-! One tick. -/

theorem htotal_pos (g : Timing) : 0 < htotal g := by simp [htotal, Config.hres]

theorem vtotal_pos (g : Timing) : 0 < vtotal g := by simp [vtotal, Config.vres]

/-- The counters one pixel clock on (R192). -/
def nextPosition (g : Timing) (h v : Nat) : Nat × Nat :=
  if h + 1 = htotal g then (0, if v + 1 = vtotal g then 0 else v + 1) else (h + 1, v)

theorem scanAdvance_eq (s : State) :
    scanAdvance s = { s with
      hcnt := (nextPosition s.tsCfg.timing s.hcnt s.vcnt).1, vcnt := (nextPosition s.tsCfg.timing s.hcnt s.vcnt).2 } := by
  unfold scanAdvance nextPosition
  split <;> rfl

/-- A tick that answers a next state, in full. -/
theorem tsTick_eq {s t : State} (h : tsTick s = .next t) :
    ∃ d, tickData (frameBoundary s) = some d ∧ t = { s with
      front := frontAfter s, flipPending := if flips s then false else s.flipPending,
      frameNo := if atBoundary s then s.frameNo + 1 else s.frameNo,
      earlierViews := if atBoundary s then [] else s.earlierViews,
      draws := s.draws + 1,
      hcnt := (nextPosition s.tsCfg.timing s.hcnt s.vcnt).1, vcnt := (nextPosition s.tsCfg.timing s.hcnt s.vcnt).2,
      scan := s.scan ++ (if flips s then [.flip] else []) ++ [tickPix s d] } := by
  obtain ⟨d, hd, ht⟩ := tsTick_next.1 h
  refine ⟨d, hd, ?_⟩
  rw [ht, scanAdvance_eq, frameBoundary_eq]
  rfl

theorem exec_tsTick {s : State} (h : s.tsState = .running) : exec .tsTick s = tsTick s := if_pos h

theorem frontAfter_isSome {s : State} (h : buffersExist s) : (bufferOf s (frontAfter s)).isSome = true := by
  unfold frontAfter
  split
  · rename_i hf
    exact h.2 (by simp only [flips, Bool.and_eq_true, beq_iff_eq] at hf; exact hf.1.2)
  · exact h.1

/-- Where the buffers exist a tick answers a next state. -/
theorem tsTick_answers {s : State} (h : buffersExist s) : ∃ t, tsTick s = .next t := by
  have hs := frontAfter_isSome h
  have hd : ∃ d, tickData (frameBoundary s) = some d := by
    rw [frameBoundary_eq]
    unfold tickData
    split
    · obtain ⟨fb, hfb⟩ := Option.isSome_iff_exists.1 hs
      show ∃ d, Option.map _ (bufferOf s (frontAfter s)) = some d
      rw [hfb]
      exact ⟨_, rfl⟩
    · exact ⟨_, rfl⟩
  obtain ⟨d, hd⟩ := hd
  exact ⟨_, tsTick_next.2 ⟨d, hd, rfl⟩⟩

theorem bufferOf_update {s t : State} (h0 : t.fb0 = s.fb0) (h1 : t.fb1 = s.fb1) (k : Buffer) :
    bufferOf t k = bufferOf s k := by cases k <;> assumption

theorem otherBuffer_otherBuffer (k : Buffer) : otherBuffer (otherBuffer k) = k := by cases k <;> rfl

/-- A tick keeps the buffers and their existence, and the position in range. -/
theorem tsTick_buffersExist {s t : State} (hb : buffersExist s) (h : tsTick s = .next t) : buffersExist t := by
  obtain ⟨d, -, rfl⟩ := tsTick_eq h
  have e : ∀ k, bufferOf { s with
      front := frontAfter s, flipPending := if flips s then false else s.flipPending,
      frameNo := if atBoundary s then s.frameNo + 1 else s.frameNo,
      earlierViews := if atBoundary s then [] else s.earlierViews,
      draws := s.draws + 1,
      hcnt := (nextPosition s.tsCfg.timing s.hcnt s.vcnt).1, vcnt := (nextPosition s.tsCfg.timing s.hcnt s.vcnt).2,
      scan := s.scan ++ (if flips s then [.flip] else []) ++ [tickPix s d] } k = bufferOf s k := fun k => by cases k <;> rfl
  refine ⟨?_, fun hm => ?_⟩
  · rw [e]
    exact frontAfter_isSome hb
  · rw [e]
    show (bufferOf s (otherBuffer (frontAfter s))).isSome = true
    unfold frontAfter
    split
    · rw [otherBuffer_otherBuffer]
      exact hb.1
    · exact hb.2 hm

theorem nextPosition_lt {g : Timing} {h v : Nat} (hh : h < htotal g) (hv : v < vtotal g) :
    (nextPosition g h v).1 < htotal g ∧ (nextPosition g h v).2 < vtotal g := by
  unfold nextPosition
  split
  · refine ⟨htotal_pos g, ?_⟩
    dsimp only
    split
    · exact vtotal_pos g
    · omega
  · exact ⟨by dsimp only; omega, hv⟩

/-! Ticks in a row. -/

theorem ticks_succ {n : Nat} {s t : State} (h : exec .tsTick s = .next t) : ticks (n + 1) s = ticks n t := by
  rw [ticks, h]

/-- Ticks after ticks. -/
theorem ticks_add {m n : Nat} {s t : State} (h : ticks m s = .next t) : ticks (m + n) s = ticks n t := by
  induction m generalizing s with
  | zero => cases h; rw [Nat.zero_add]
  | succ m ih =>
    rw [ticks] at h
    rw [Nat.succ_add, ticks]
    split at h
    · exact ih h
    · cases h
    · cases h

/-! Any step, while RUNNING. -/

/-- What a step can do to the scan: nothing, or one tick. -/
structure ScanStep (s t : State) : Prop where
  params : t.params = s.params
  running : t.tsState = .running
  tsCfg : t.tsCfg = s.tsCfg
  scan : (t.scan = s.scan ∧ t.hcnt = s.hcnt ∧ t.vcnt = s.vcnt) ∨
    ∃ fl d, (fl = [] ∨ (fl = [.flip] ∧ s.hcnt = 0 ∧ s.vcnt = 0)) ∧ t.scan = s.scan ++ fl ++ [tickPix s d] ∧
      t.hcnt = (nextPosition s.tsCfg.timing s.hcnt s.vcnt).1 ∧ t.vcnt = (nextPosition s.tsCfg.timing s.hcnt s.vcnt).2

theorem scanStep_still {s t : State} (hr : s.tsState = .running) (h0 : t.params = s.params) (h1 : t.tsState = s.tsState)
    (h2 : t.tsCfg = s.tsCfg) (h3 : t.scan = s.scan) (h4 : t.hcnt = s.hcnt) (h5 : t.vcnt = s.vcnt) : ScanStep s t :=
  ⟨h0, h1.trans hr, h2, .inl ⟨h3, h4, h5⟩⟩

theorem scanStep_linkSide {s t : State} (hr : s.tsState = .running) (h : LinkSide s t) : ScanStep s t :=
  scanStep_still hr h.params h.tsState h.tsCfg h.scan h.hcnt h.vcnt

theorem scanStep_tick {s t : State} (hr : s.tsState = .running) (h : tsTick s = .next t) : ScanStep s t := by
  obtain ⟨d, -, rfl⟩ := tsTick_eq h
  refine ⟨rfl, hr, rfl, .inr ⟨if flips s then [.flip] else [], d, ?_, rfl, rfl, rfl⟩⟩
  split
  · rename_i hf
    simp only [flips, atBoundary, Bool.and_eq_true, beq_iff_eq] at hf
    exact .inr ⟨rfl, hf.1.1⟩
  · exact .inl rfl

theorem setBuffer_fields (s : State) (k : Buffer) (fb : Framebuffer) :
    (setBuffer s k fb).params = s.params ∧ (setBuffer s k fb).tsState = s.tsState ∧
      (setBuffer s k fb).tsCfg = s.tsCfg ∧ (setBuffer s k fb).scan = s.scan ∧ (setBuffer s k fb).hcnt = s.hcnt ∧
        (setBuffer s k fb).vcnt = s.vcnt := by cases k <;> exact ⟨rfl, rfl, rfl, rfl, rfl, rfl⟩

theorem keepView_fields (fb : Framebuffer) (s : State) :
    (keepView fb s).params = s.params ∧ (keepView fb s).tsState = s.tsState ∧
      (keepView fb s).tsCfg = s.tsCfg ∧ (keepView fb s).scan = s.scan ∧ (keepView fb s).hcnt = s.hcnt ∧
        (keepView fb s).vcnt = s.vcnt := by unfold keepView; split <;> exact ⟨rfl, rfl, rfl, rfl, rfl, rfl⟩

/-- While RUNNING, BRING_UP can only fail at its first stage. -/
theorem execBringUp_running {s t : State} (hr : s.tsState = .running) (h : execBringUp s = .next t) :
    ∃ s1 e, expInit s = (s1, some e) ∧ t = failBringUp e s1 := by
  obtain ⟨-, -, -, h | h⟩ := execBringUp_next h
  · simp [tsConfigureRefusal, hr] at h
  · exact h

theorem exec_scanStep {i : Instr} {s t : State} (hr : s.tsState = .running) (h : exec i s = .next t) : ScanStep s t := by
  by_cases hi : streamSide i = false
  · exact scanStep_linkSide hr (exec_linkSide hi h)
  · cases i with
    | tsTick => exact scanStep_tick hr ((exec_tsTick hr).symm.trans h)
    | tsConfigure a b c =>
      change execTsConfigure a b c s = _ at h
      simp [execTsConfigure, tsConfigureRefusal, hr] at h
    | tsStart =>
      change execTsStart s = _ at h
      simp [execTsStart, tsStartRefusal, hr] at h
    | tsNotify r =>
      change execTsNotify r s = _ at h
      unfold execTsNotify at h
      split at h
      · cases h
      · cases h
        unfold tsNotify
        split <;> exact scanStep_still hr rfl rfl rfl rfl rfl rfl
    | bringUp =>
      obtain ⟨s1, e, he, rfl⟩ := execBringUp_running hr h
      have hl := linkSide_expInit s
      rw [he] at hl
      exact scanStep_still hr hl.params hl.tsState hl.tsCfg hl.scan hl.hcnt hl.vcnt
    | flush r ps =>
      obtain ⟨-, -, ⟨-, rfl⟩ | ⟨fb, -, -, -, -, rfl⟩⟩ := execFlush_next h
      · exact scanStep_still hr rfl rfl rfl rfl rfl rfl
      · have hk := keepView_fields fb s
        have hs := setBuffer_fields
          { keepView fb s with flush := some { rect := r, before := fb, phase := .notify }, lastResult := none }
          (stagingOf (keepView fb s)) (fbWriteAll fb (rectIndices r) ps)
        exact scanStep_still hr (hs.1.trans hk.1) (hs.2.1.trans hk.2.1) (hs.2.2.1.trans hk.2.2.1)
          (hs.2.2.2.1.trans hk.2.2.2.1) (hs.2.2.2.2.1.trans hk.2.2.2.2.1) (hs.2.2.2.2.2.trans hk.2.2.2.2.2)
    | _ => exact absurd rfl hi

theorem flushContinue_scanStep {s t : State} (hr : s.tsState = .running) (h : flushContinue s = .next t) :
    ScanStep s t := by
  obtain rfl | ⟨job, -, -, -, rfl⟩ | ⟨job, f, g, -, -, -, -, -, rfl⟩ | ⟨_, fb, -, -, -, -, rfl⟩ | ⟨_, -, -, -, rfl⟩ :=
    flushContinue_next h
  · exact scanStep_still hr rfl rfl rfl rfl rfl rfl
  · unfold tsNotify
    split <;> exact scanStep_still hr rfl rfl rfl rfl rfl rfl
  · have hs := setBuffer_fields s (stagingOf s) (copyBack job.rect f g)
    exact scanStep_still hr hs.1 hs.2.1 hs.2.2.1 hs.2.2.2.1 hs.2.2.2.2.1 hs.2.2.2.2.2
  · have hk := keepView_fields fb s
    exact scanStep_still hr hk.1 hk.2.1 hk.2.2.1 hk.2.2.2.1 hk.2.2.2.2.1 hk.2.2.2.2.2
  · exact scanStep_still hr rfl rfl rfl rfl rfl rfl

theorem bringUpContinue_scanStep {s t : State} (hr : s.tsState = .running) (h : bringUpContinue s = .next t) :
    ScanStep s t := by
  unfold bringUpContinue at h
  split at h <;> cases h <;> exact scanStep_still hr rfl rfl rfl rfl rfl rfl

/-- While RUNNING every step is one tick or leaves the scan alone. -/
theorem step_scanStep {s t : State} (hr : s.tsState = .running) (h : step s = .next t) : ScanStep s t := by
  have lift : ∀ (ts qs d), ScanStep { s with turns := ts, requests := qs, draws := d } t → ScanStep s t :=
    fun _ _ _ k => ⟨k.params, k.running, k.tsCfg, k.scan⟩
  obtain ⟨ts, d, e | e | e | e⟩ := step_cases s <;> rw [e] at h
  · unfold streamerMove at h
    rw [if_pos hr] at h
    exact lift ts s.requests d (scanStep_tick hr h)
  · exact lift ts s.requests d (bringUpContinue_scanStep hr h)
  · exact lift ts s.requests d (flushContinue_scanStep hr h)
  · obtain k | ⟨x, k⟩ | ⟨q, qs, i, -, -, -, -, k⟩ := requestMove_cases { s with turns := ts, draws := d } <;> rw [k] at h
    · cases h
      exact scanStep_still hr rfl rfl rfl rfl rfl rfl
    · cases h
    · exact lift ts qs d (exec_scanStep (s := { s with turns := ts, draws := d, requests := qs }) hr h)

/-- With the next `n` turns the Streamer's, `n` steps are `n` pixel clocks, and append `n` Pix events. -/
theorem steps_streamer {n : Nat} {s : State} (hr : s.tsState = .running) (hb : buffersExist s)
    (ht : s.turns = List.replicate n .streamer) :
    ∃ t es, steps n s = .next t ∧ t.scan = s.scan ++ es ∧ (pixOnly es).length = n := by
  induction n generalizing s with
  | zero => exact ⟨s, [], rfl, (List.append_nil _).symm, rfl⟩
  | succ n ih =>
    obtain ⟨u, hu⟩ := tsTick_answers (s := { s with turns := List.replicate n .streamer }) hb
    have hstep : step s = .next u := by
      simp only [step, nextTurn, ht, List.replicate_succ]
      exact (if_pos hr).trans hu
    have hbu := tsTick_buffersExist (s := { s with turns := List.replicate n .streamer }) hb hu
    obtain ⟨d, -, e⟩ := tsTick_eq hu
    obtain ⟨t, es, hs, hsc, hn⟩ := ih (by rw [e]; exact hr) hbu (by rw [e])
    refine ⟨t, (if flips s then [.flip] else []) ++ [tickPix s d] ++ es, ?_, ?_, ?_⟩
    · rw [steps, hstep]
      exact hs
    · rw [hsc, e]
      simp only [List.append_assoc]
      rfl
    · rw [← hn]
      split <;> simp [pixOnly, tickPix]

/-! Counting along a video frame: position `k` is in column `k % h` of line `k / h`. -/

/-- How many of the first `n` numbers lie in `[lo, hi)`. -/
theorem countP_range (lo hi n : Nat) (h : hi ≤ n) : (List.range n).countP (fun i => decide (lo ≤ i ∧ i < hi)) = hi - lo := by
  induction n generalizing hi with
  | zero => simp [show hi = 0 by omega]
  | succ n ih =>
    rw [List.range_succ, List.countP_append, List.countP_singleton]
    by_cases e : hi ≤ n
    · rw [ih hi e, if_neg (by simp; omega)]
      omega
    · have : (List.range n).countP (fun i => decide (lo ≤ i ∧ i < hi)) =
          (List.range n).countP (fun i => decide (lo ≤ i ∧ i < n)) := by
        refine List.countP_congr fun i hi' => ?_
        simp only [List.mem_range] at hi'
        simp only [decide_eq_true_eq]
        omega
      rw [this, ih n (Nat.le_refl n)]
      by_cases hl : lo ≤ n
      · rw [if_pos (by simp; omega)]
        omega
      · rw [if_neg (by simp; omega)]
        omega

/-- A condition on the column and one on the line, over whole lines. -/
theorem countP_columns (h v : Nat) (p q : Nat → Bool) (hh : 0 < h) :
    (List.range (h * v)).countP (fun k => p (k % h) && q (k / h)) =
      (List.range h).countP p * (List.range v).countP q := by
  induction v with
  | zero => simp
  | succ v ih =>
    rw [Nat.mul_succ, List.range_add, List.countP_append, ih, List.countP_map, List.range_succ (n := v),
      List.countP_append, List.countP_singleton, Nat.mul_add]
    congr 1
    have e : ∀ k ∈ List.range h, ((fun k => p (k % h) && q (k / h)) ∘ fun x => h * v + x) k = (p k && q v) := by
      intro k hk
      have hk' : k < h := List.mem_range.1 hk
      simp only [Function.comp, Nat.mul_add_mod, Nat.mod_eq_of_lt hk', Nat.mul_add_div hh, Nat.div_eq_of_lt hk',
        Nat.add_zero]
    rw [List.countP_congr fun k hk => by rw [e k hk]]
    cases q v <;> simp

end Sys2Proof.Machine
end

