-- ==== Sys2Proof/Tests/Slice0.lean ====
section
/-! SUPPORT. The author's tests: well-formedness, decoding of words written out from the spec, one-step vectors of
95_test_vectors.md, and for each obligation a witness that meets its hypotheses. -/

namespace Sys2Proof.Tests

open Sys2Proof Sys2Proof.Machine

/-! Reading an answer. -/

def nextOf : Answer → Option State
  | .next t => some t
  | .fault _ => none
  | .refused _ => none

def refusalOf : Answer → Option Refusal
  | .refused r => some r
  | .next _ => none
  | .fault _ => none

def errorOf (q : Request) : Option DecodeError :=
  match decode q with
  | .error e => some e
  | .ok _ => none

def decodes (q : Request) (i : Instr) : Bool := decide ((decode q).toOption = some i)

/-- What an answer's next state shows. -/
def shows {α : Type} (f : State → α) (a : Answer) : Option α := (nextOf a).map f

theorem next_of_shows {α : Type} {f : State → α} {a : Answer} {x : α} (h : shows f a = some x) :
    ∃ t, a = .next t ∧ f t = x := by
  cases a with
  | next t => exact ⟨t, rfl, by simpa [shows, nextOf] using h⟩
  | fault x => cases h
  | refused x => cases h

/-! Small states. -/

/-- After reset, with the next answers of the bus. -/
def withAcks (acks : List Ack) : State := { State.reset with acks := acks }

/-- After EXP_INIT, all acknowledged (V1), and LINK_INIT (V10), with the next answers of the bus. -/
def linked (acks : List Ack) : State :=
  { State.reset with
    expInitialized := true, expHwDir := 0xFFCF, linkConfigured := true,
    clk := .driven false, sda := .driven false, bl := .driven false, acks := acks,
    tr := [.i2cProbe 0x20 .ok, .i2cWrite 0x20 0x06 0xCF 0xFF .ok, .i2cWrite 0x20 0x02 0xFF 0xFF .ok] ++
      linkInitEvents }

/-- After LINK_INIT alone. -/
def linkedOnly : State :=
  { State.reset with
    linkConfigured := true, clk := .driven false, sda := .driven false, bl := .driven false, tr := linkInitEvents }

/-- The example parameters with this mode. -/
def paramsOf (m : StreamMode) : Params := { Config.paramsEx with streamMode := m }

/-- Before TS_START, after TS_CONFIGURE, with the next answers of `alloc`. -/
def configured (m : StreamMode) (as : List AllocAnswer) : State :=
  { State.resetWith (paramsOf m) with
    tsState := .configured, tsCfg := ⟨timingOf (paramsOf m), (paramsOf m).dataPins, (paramsOf m).ctrlPins⟩,
    allocAnswers := as }

/-- Ready and running, with this front buffer, at this scan position. -/
def ready (m : StreamMode) (fb : Framebuffer) (hcnt vcnt : Nat) : State :=
  { configured m [] with
    tsState := .running, hcnt := hcnt, vcnt := vcnt, fb0 := some fb,
    fb1 := match m with
      | .single => none
      | .double => some { drawn := 1, cells := [] },
    expInitialized := true, linkConfigured := true, ppDone := true, ppIndex := 14, ppState := .displaying,
    clk := .driven false, sda := .driven false, bl := .driven true, panelReady := true }

/-- A framebuffer nothing has written. -/
def fresh : Framebuffer := { drawn := 0, cells := [] }

/-- A ready state with a FLUSH of two pixels in flight that has come to this point, the Writer to move. -/
def flying (m : StreamMode) (ph : FlushPhase) (pending : Bool) : State :=
  { ready m fresh 7 100 with
    flush := some { rect := ⟨1, 0, 3, 1⟩, before := fresh, phase := ph }, flipPending := pending, turns := [.writer] }

/-- The levels the data line takes. -/
def sdaLevels (es : List Event) : List Level :=
  es.filterMap fun e => match e with
    | .line .sda b => some b
    | _ => none

def bits (ns : List Nat) : List Level := ns.map fun n => n == 1

def goodTiming : Timing := timingOf Config.paramsEx

def goodConfig (t : Timing) : Instr := .tsConfigure t Config.paramsEx.dataPins Config.paramsEx.ctrlPins

/-! Well-formedness: a term each check refuses, and the boundaries each admits. -/

/-- R85: W flag and register number. -/
theorem test_wf_bus_write :
    [Instr.i2cWrite 0x20 1 0x02 0 0, .i2cWrite 0x20 0 0x03 0 0, .i2cWriteDir 0x20 1 0 0,
      .i2cWriteOut 0x20 1 0 0].map Instr.wf = [false, false, false, false] ∧
    [Instr.i2cWrite 0x20 0 0x02 0 0, .i2cWrite 0x20 0 0x06 0 0, .i2cWriteDir 0x20 0 0 0,
      .i2cWriteOut 0x20 0 0 0].map Instr.wf = [true, true, true, true] := by decide

/-- R93: 100 to 150 ms. -/
theorem test_wf_delay :
    [99, 100, 150, 151].map (fun n => (Instr.entryDelay n).wf) = [false, true, true, false] ∧
    [99, 100, 150, 151].map (fun n => (Instr.regopDelay n).wf) = [false, true, true, false] := by decide

/-- R181, condition by condition (V27). -/
theorem test_wf_config :
    [{ goodTiming with hres := 320 }, { goodTiming with vres := 320 }, { goodTiming with hpw := 0 },
      { goodTiming with vpw := 0 }, { goodTiming with pclkHz := 0 }, { goodTiming with pclkInverted := true }].map
        (fun t => (goodConfig t).wf) = [false, false, false, false, false, false] ∧
    (Instr.tsConfigure goodTiming (Config.paramsEx.dataPins.set 3 7) Config.paramsEx.ctrlPins).wf = false ∧
    (goodConfig { goodTiming with hbp := 0, hfp := 0, vbp := 0, vfp := 0, hpw := 1, vpw := 1 }).wf = true := by decide

/-- R88, R89: rectangle and count. -/
theorem test_wf_rect :
    [Instr.tsNotify ⟨0, 0, 481, 480⟩, .tsNotify ⟨5, 5, 5, 9⟩, .tsNotify ⟨0, 470, 10, 490⟩, .tsNotify ⟨0, 9, 1, 9⟩,
      .flush ⟨0, 0, 2, 2⟩ [1, 2, 3]].map Instr.wf = [false, false, false, false, false] ∧
    [Instr.tsNotify ⟨0, 0, 480, 480⟩, .flush ⟨0, 0, 2, 2⟩ [1, 2, 3, 4]].map Instr.wf = [true, true] := by decide

/-- R7, R93: the parameters, one condition wrong at a time. -/
theorem test_wf_params :
    paramsWellFormed Config.paramsEx = true ∧
    [{ Config.paramsEx with rstBit := 4 }, { Config.paramsEx with tRstHoldMs := 9 }, { Config.paramsEx with table := [] },
      { Config.paramsEx with milestones := [1, 3, 5, 7, 8, 9, 11] },
      { Config.paramsEx with milestones := [1, 3, 5, 6, 8, 9, 11, 12] },
      { Config.paramsEx with milestones := [3, 1, 5, 7, 8, 9, 11, 12] },
      { Config.paramsEx with hpw := 0 }].map paramsWellFormed = List.replicate 7 false := by decide

/-- R174: in program P1's table the delays stand in their places; with the last one moved before the sleep-out entry they
do not, nor with the second moved behind it, nor with the first at the table's head, though R93 holds of each. -/
theorem test_delaysInPlace :
    let w : RegisterOp := .write .setParam 0 []
    let d : RegisterOp := .delay 100
    let ms : List Nat := [0, 1, 2, 3, 4, 5, 8, 9]
    delaysInPlace Config.paramsEx.table Config.paramsEx.milestones = true ∧
    [[w, w, w, w, w, w, d, d, w, w, d], [w, w, w, w, w, w, d, d, w, w, d, w], [w, w, w, w, w, w, d, w, w, w, d, d]].map
      (fun t => (tableWellFormed t, milestonesWellFormed t ms, delaysInPlace t ms)) =
        [(true, true, true), (true, true, false), (true, true, false)] ∧
    (fun t ms => (tableWellFormed t, milestonesWellFormed t ms, delaysInPlace t ms))
      [d, w, w, w, w, w, w, d, w, w, d] [1, 2, 3, 4, 5, 6, 8, 9] = (true, true, false) := by decide

/-! Decoding: words written out from the rules. -/

/-- R80, R81, R82: bit 8 is the mode, bits 7:0 the payload (V11, V12, V13, V14). -/
theorem test_decode_frames :
    decodeTableWord 16 0b1_1010_0101 = some (.frameData 0xA5) ∧ decodeTableWord 16 0b0_0001_0010 = some (.frameCmd 0x12) ∧
    decodeTableWord 9 0b1_0000_0000 = some (.frameData 0) ∧ decodeTableWord 9 0b0_1111_1111 = some (.frameCmd 0xFF) ∧
    decodeTableWord 24 0b0_0001_0010_1_0011_0100 = some (.splitCmd 0x12 0x34) ∧
    errorOf ⟨.serialFrame, [512]⟩ = some (.badFrame 512) ∧
    errorOf ⟨.serialPair, [0x112, 0x134]⟩ = some (.badPair 0x112 0x134) ∧
    errorOf ⟨.serialPair, [0x012, 0x034]⟩ = some (.badPair 0x012 0x034) := by decide

/-- R85: address bits 7:1, W flag bit 0, register, low byte, high byte (V1, V3). -/
theorem test_decode_bus_writes :
    decodeTableWord 32 0b0100000_0_00000110_11001111_11111111 = some (.i2cWriteDir 0x20 0 0xCF 0xFF) ∧
    decodeTableWord 32 0b0100000_0_00000010_11101111_11111111 = some (.i2cWriteOut 0x20 0 0xEF 0xFF) ∧
    decodeTableWord 32 0b1000001_1_00000011_00010010_00110100 = some (.i2cWrite 0x41 1 0x03 0x12 0x34) := by decide

/-- R100: the operations of the four components, `op_id` first. -/
theorem test_decode_operations :
    decodes ⟨.descriptor, [0x01]⟩ .expInit ∧ decodes ⟨.descriptor, [0x02, 1, 0]⟩ (.expSet .rst false) ∧
    decodes ⟨.descriptor, [0x03, 0]⟩ (.expGet .cs) ∧ decodes ⟨.descriptor, [0x10]⟩ .linkInit ∧
    decodes ⟨.descriptor, [0x11, 0xA5]⟩ (.sendData 0xA5) ∧ decodes ⟨.descriptor, [0x12, 0x1234]⟩ (.sendCommand 0x1234) ∧
    decodes ⟨.descriptor, [0x20]⟩ .panelReset ∧ decodes ⟨.descriptor, [0x21]⟩ .progRun ∧
    decodes ⟨.descriptor, [0x31]⟩ .tsStart ∧ decodes ⟨.descriptor, [0x32, 10, 20, 30, 40]⟩ (.tsNotify ⟨10, 20, 30, 40⟩) ∧
    decodes ⟨.descriptor, [0x40]⟩ .bringUp ∧ decodes ⟨.descriptor, [0x41]⟩ .backlightOn ∧
    decodes ⟨.descriptor, [0x42, 1, 0, 3, 1, 2, 0xAAAA, 0xBBBB]⟩ (.flush ⟨1, 0, 3, 1⟩ [0xAAAA, 0xBBBB]) := by decide

/-- R100, R31, R96: TS_CONFIGURE's operands in their order (example set EX). -/
theorem test_decode_ts_configure :
    decodes ⟨.descriptor, [0x30, 16000000, 480, 480, 2, 3, 4, 1, 2, 3, 0, 0, 1, 0,
      0, 1, 2, 3, 4, 5, 6, 7, 8, 9, 10, 11, 12, 13, 14, 15, 16, 17, 18, 19]⟩ (goodConfig goodTiming) := by decide

/-- R100: the primitive steps. -/
theorem test_decode_steps :
    decodes ⟨.descriptor, [0x80, 1, 0xA5]⟩ (.xfer true 0xA5) ∧ decodes ⟨.descriptor, [0x81, 2, 1]⟩ (.lineSet .bl true) ∧
    decodes ⟨.descriptor, [0x82, 3]⟩ (.delayUs 3) ∧ decodes ⟨.descriptor, [0x83, 10]⟩ (.delayMs 10) ∧
    decodes ⟨.descriptor, [0x84, 1, 0xD001, 2, 0x11, 0x22]⟩ (.regopWrite .setParam 0xD001 [0x11, 0x22]) ∧
    decodes ⟨.descriptor, [0x85, 120]⟩ (.regopDelay 120) ∧ decodes ⟨.descriptor, [0x86]⟩ .tsTick := by decide

/-- R92, R103: table records and pseudo-operations. -/
theorem test_decode_records :
    decodes ⟨.tableEntry, [0, 0, 0xFF01, 1, 0x01]⟩ (.entryWrite .selectPage 0xFF01 [0x01]) ∧
    decodes ⟨.tableEntry, [1, 120]⟩ (.entryDelay 120) ∧
    decodes ⟨.pseudo, [0, 1]⟩ (.cs true) ∧ decodes ⟨.pseudo, [1, 0]⟩ (.clk false) ∧ decodes ⟨.pseudo, [2, 1]⟩ (.sda true) ∧
    decodes ⟨.pseudo, [3, 0]⟩ (.rst false) ∧ decodes ⟨.pseudo, [4, 1]⟩ (.bl true) ∧
    decodes ⟨.pseudo, [5, 0x00FF, 2, 0x77, 0x01]⟩ (.writeReg 0x00FF [0x77, 0x01]) := by decide

/-- R101: what is outside its set is rejected, at each boundary. -/
theorem test_decode_refuses :
    [⟨.descriptor, [0x99]⟩, ⟨.descriptor, [0x00]⟩, ⟨.descriptor, [0x02, 2, 0]⟩, ⟨.descriptor, [0x02, 1, 2]⟩,
      ⟨.descriptor, [0x03, 2]⟩, ⟨.descriptor, [0x81, 3, 0]⟩, ⟨.descriptor, [0x81, 2, 2]⟩, ⟨.descriptor, [0x80, 2, 0]⟩,
      ⟨.descriptor, [0x11, 256]⟩, ⟨.descriptor, [0x12, 65536]⟩].map errorOf =
    [some (.unknownOpId 0x99), some (.unknownOpId 0), some (.badPin 2), some (.badLevel 2), some (.badPin 2),
      some (.badLine 3), some (.badLevel 2), some (.badLevel 2), some (.badByte 256), some (.badWord 65536)] := by decide

/-- R101: the same inside pseudo-operations, TS_CONFIGURE, XFER, WRITE_REG, FLUSH and bus writes, at each boundary. -/
theorem test_decode_refuses_inside :
    ([0, 1, 2, 3, 4].map fun k => errorOf ⟨.pseudo, [k, 2]⟩) = List.replicate 5 (some (.badLevel 2)) ∧
    [⟨.descriptor, [0x80, 1, 256]⟩, ⟨.pseudo, [5, 65536, 0]⟩, ⟨.pseudo, [5, 65535, 2, 255, 256]⟩,
      ⟨.descriptor, [0x42, 0, 0, 2, 1, 2, 65535, 65536]⟩, ⟨.busWrite, [0x40, 2, 255, 256]⟩,
      ⟨.busWrite, [256, 2, 255, 255]⟩].map errorOf =
    [some (.badByte 256), some (.badWord 65536), some (.badByte 256), some (.badWord 65536), some (.badByte 256),
      some (.badByte 256)] ∧
    [⟨.descriptor, [0x30, 1, 480, 480, 1, 0, 0, 1, 0, 0] ++ [1, 1, 1, 2] ++ List.replicate 20 0⟩,
      ⟨.descriptor, [0x30, 1, 480, 480, 1, 0, 0, 1, 0, 0] ++ [2, 1, 1, 1] ++ List.replicate 20 0⟩,
      ⟨.descriptor, [0x30, 1, 480, 480, 1, 0, 0, 1, 0, 0, 1, 1, 1, 1] ++ List.replicate 19 255 ++ [256]⟩,
      ⟨.descriptor, [0x30, 1, 480, 480, 1, 0, 0, 1, 0, 0, 1, 1, 1, 1] ++ [256] ++ List.replicate 19 255⟩].map errorOf =
    [some (.badLevel 2), some (.badLevel 2), some (.badByte 256), some (.badByte 256)] := by decide

/-- R101: the same inside a WRITE entry, as a descriptor's operand and as a record of the table. -/
theorem test_decode_refuses_entry :
    ([⟨.descriptor, 0x84⟩, ⟨.tableEntry, 0⟩].map fun (x : Format × Nat) =>
      [errorOf ⟨x.1, [x.2, 2, 0, 0]⟩, errorOf ⟨x.1, [x.2, 1, 65536, 0]⟩, errorOf ⟨x.1, [x.2, 1, 65535, 2, 255, 256]⟩]) =
    List.replicate 2 [some (.badPageOp 2), some (.badWord 65536), some (.badByte 256)] := by decide

/-- R101, log 8: the other rejections. -/
theorem test_decode_refuses_counts :
    [⟨.descriptor, [0x01, 0]⟩, ⟨.descriptor, [0x42, 0, 0, 1, 1, 2, 7]⟩, ⟨.tableEntry, [2]⟩, ⟨.pseudo, [6]⟩,
      ⟨.tableEntry, [0, 2, 0, 0]⟩].map errorOf =
    [some .badOperandCount, some .badOperandCount, some (.badEntryKind 2), some (.unknownPseudo 6),
      some (.badPageOp 2)] := by decide

/-! ExpanderBus. -/

/-- V1: the words, the chip and the lines. -/
theorem test_expInit :
    shows (fun t => (t.tr, t.expInitialized, t.expMirror, t.expHwDir, t.expHwOut)) (exec .expInit (withAcks [.ok, .ok, .ok])) =
      some ([.i2cProbe 0x20 .ok, .i2cWrite 0x20 0x06 0xCF 0xFF .ok, .i2cWrite 0x20 0x02 0xFF 0xFF .ok],
        true, 0xFFFF, 0xFFCF, 0xFFFF) ∧
    shows (fun t => (csLine t, rstLine t, t.lastResult)) (exec .expInit (withAcks [.ok, .ok, .ok])) =
      some (some true, some true, some .ok) := by decide

/-- V2b: the acknowledged direction write stays. -/
theorem test_expInit_fails :
    shows (fun t => (t.tr.drop 1, t.expInitialized, t.expHwDir, t.lastResult)) (exec .expInit (withAcks [.ok, .ok, .nack])) =
      some ([.i2cWrite 0x20 0x06 0xCF 0xFF .ok, .i2cWrite 0x20 0x02 0xFF 0xFF .nack], false, 0xFFCF,
        some (.error (.transportAbsent .expInit))) := by decide

/-- V3: the word is the whole mirror, the write is repeated. -/
theorem test_expSet :
    shows (fun t => (t.expMirror, t.tr.getLast?, csLine t)) (exec (.expSet .cs false) (linked [.ok])) =
      some (0xFFEF, some (.i2cWrite 0x20 0x02 0xEF 0xFF .ok), some false) ∧
    shows (fun t => (t.expMirror, t.tr.getLast?)) (exec (.expSet .cs true) { linked [.ok] with expMirror := 0xFFDF }) =
      some (0xFFDF, some (.i2cWrite 0x20 0x02 0xDF 0xFF .ok)) := by decide

/-- V5: the swallowed failure. -/
theorem test_expSet_nack :
    shows (fun t => (t.expMirror, t.expHwOut, rstLine t, t.lastResult)) (exec (.expSet .rst false) (linked [.nack])) =
      some (0xFFDF, 0xFFFF, some true, some .void) := by decide

/-- V4 and R103: nothing on an uninitialised bus. -/
theorem test_pin_pseudo :
    shows (fun t => (t.expMirror, t.tr)) (exec (.cs false) (withAcks [.ok])) = some (0xFFFF, []) ∧
    shows (fun t => t.tr.getLast?) (exec (.rst false) (linked [.ok])) =
      some (some (.i2cWrite 0x20 0x02 0xDF 0xFF .ok)) := by decide

/-- V5: EXP_GET reads the mirror, not the chip. -/
theorem test_expGet :
    shows (fun t => t.lastResult) (exec (.expGet .rst) { linked [] with expMirror := 0xFFDF }) =
      some (some (.level false)) := by decide

/-- R112: the two registers. -/
theorem test_bus_write_rows :
    shows (fun t => (t.expHwDir, t.expHwOut)) (exec (.i2cWriteDir 0x20 0 0xCF 0xFE) (withAcks [.ok])) =
      some (0xFECF, 0xFFFF) ∧
    shows (fun t => (t.expHwDir, t.expHwOut)) (exec (.i2cWriteOut 0x20 0 0xEF 0x12) (withAcks [.ok])) =
      some (0xFFFF, 0x12EF) ∧
    shows (fun t => (t.expHwDir, t.expHwOut)) (exec (.i2cWrite 0x20 0 0x02 0xEF 0x12) (withAcks [.nack])) =
      some (0xFFFF, 0xFFFF) ∧
    refusalOf (exec (.i2cWrite 0x20 1 0x02 0 0) State.reset) = some .badOperand := by decide

/-! BitBangLink. -/

/-- V10. -/
theorem test_linkInit :
    shows (fun t => (t.tr, t.linkConfigured, t.clk, t.sda, t.bl)) (exec .linkInit State.reset) =
      some ([.pinCfg .clk, .pinCfg .sda, .pinCfg .bl, .line .clk false, .line .sda false, .line .bl false], true,
        .driven false, .driven false, .driven false) := by decide

/-- V11: 49 events, the nine levels, one frame received. -/
theorem test_sendData :
    shows (fun t => ((t.tr.drop 9).length, sdaLevels (t.tr.drop 9), t.tr[9]?, t.tr[57]?))
        (exec (.sendData 0xA5) (linked [.ok, .ok])) =
      some (49, bits [1, 1, 0, 1, 0, 0, 1, 0, 1], some (.i2cWrite 0x20 0x02 0xEF 0xFF .ok), some (.delayUs 5)) ∧
    shows (fun t => rx t.params t.tr) (exec (.sendData 0xA5) (linked [.ok, .ok])) = some [.frame true 0xA5] := by decide +kernel

/-- V12: two chip-select cycles, high byte first. -/
theorem test_sendCommand :
    shows (fun t => ((t.tr.drop 9).length, sdaLevels (t.tr.drop 9), t.sda))
        (exec (.sendCommand 0x1234) (linked [.ok, .ok, .ok, .ok])) =
      some (98, bits [0, 0, 0, 0, 1, 0, 0, 1, 0, 1, 0, 0, 1, 1, 0, 1, 0, 0], .driven false) := by decide +kernel

/-- V19: a missed de-assert makes one cycle of eighteen bits. -/
theorem test_sendCommand_missed_deassert :
    shows (fun t => (rx t.params t.tr, t.expHwOut)) (exec (.sendCommand 0x1234) (linked [.ok, .nack, .ok, .ok])) =
      some ([.malformed 18], 0xFFFF) := by decide +kernel

/-- R82, R84: the pair is SEND_COMMAND of its bytes; V15 for a code below 0x0100. -/
theorem test_splitCmd :
    shows (fun t => sdaLevels (t.tr.drop 9)) (exec (.splitCmd 0x00 0xFF) (linked [.ok, .ok, .ok, .ok])) =
      some (bits [0, 0, 0, 0, 0, 0, 0, 0, 0, 1, 1, 1, 1, 1, 1, 1, 1, 1]) := by decide +kernel

/-- V16, V18: frames on an uninitialised bus have 47 events; the mode bit is the row's. -/
theorem test_frames :
    shows (fun t => ((t.tr.drop 6).length, sdaLevels (t.tr.drop 6))) (exec (.frameCmd 0x80) linkedOnly) =
      some (47, bits [0, 0, 1, 0, 0, 0, 0, 0, 0, 0].tail) ∧
    shows (fun t => ((t.tr.drop 6).length, sdaLevels (t.tr.drop 6))) (exec (.frameData 0x01) linkedOnly) =
      some (47, bits [0, 1, 0, 0, 0, 0, 0, 0, 0, 1].tail) := by decide

/-- V20: a missed assert loses the frame. -/
theorem test_xfer :
    shows (fun t => rx t.params t.tr) (exec (.xfer true 0x34) (linked [.nack, .ok])) = some [] ∧
    shows (fun t => rx t.params t.tr) (exec (.xfer false 0x12) (linked [.ok, .ok])) = some [.frame false 0x12] := by decide +kernel

/-- R133, R103. -/
theorem test_lines :
    shows (fun t => (t.tr.drop 6, t.sda)) (exec (.lineSet .sda false) linkedOnly) =
      some ([.line .sda false], .driven false) ∧
    shows (fun t => (t.tr.drop 6, t.clk)) (exec (.clk true) linkedOnly) = some ([.line .clk true], .driven true) ∧
    shows (fun t => (t.tr.drop 6, t.sda)) (exec (.sda true) linkedOnly) = some ([.line .sda true], .driven true) ∧
    shows (fun t => (t.tr.drop 6, t.bl)) (exec (.bl true) linkedOnly) = some ([.line .bl true], .driven true) := by decide

/-- R135, V23: delays. -/
theorem test_delays :
    shows (fun t => t.tr.drop 6) (exec (.delayUs 0) linkedOnly) = some [.delayUs 0] ∧
    shows (fun t => t.tr.drop 6) (exec (.delayMs 10) linkedOnly) = some [.delayMs 10] ∧
    shows (fun t => t.tr.drop 6) (exec (.regopDelay 120) linkedOnly) = some [.delayMs 120] ∧
    shows (fun t => t.tr.drop 6) (exec (.entryDelay 120) linkedOnly) = some [.delayMs 120] := by decide

/-- V21, V40: refused before LINK_INIT. -/
theorem test_link_needed :
    [Instr.sendData 0xA5, .backlightOn, .progRun, .delayUs 1, .writeReg 0 [], .frameCmd 0, .entryDelay 100].map
      (fun i => refusalOf (exec i State.reset)) = List.replicate 7 (some .linkNotConfigured) := by decide

/-- V17: four frames, one of mode 0. -/
theorem test_writeReg :
    shows (fun t => rx t.params t.tr) (exec (.writeReg 0x00FF [0x77, 0x01]) (linked (List.replicate 8 .ok))) =
      some [.frame false 0x00, .frame true 0xFF, .frame true 0x77, .frame true 0x01] := by decide +kernel

/-! PanelProgrammer. -/

/-- V22, on an initialised and on an uninitialised bus. -/
theorem test_panelReset :
    shows (fun t => t.tr.drop 9) (exec .panelReset (linked [.ok, .ok])) =
      some [.i2cWrite 0x20 0x02 0xDF 0xFF .ok, .delayMs 10, .i2cWrite 0x20 0x02 0xFF 0xFF .ok] ∧
    shows (fun t => t.tr.drop 6) (exec .panelReset linkedOnly) = some [.delayMs 10] := by decide

/-- V23: frames 0x0C0 and 0x101. -/
theorem test_regopWrite :
    shows (fun t => (rx t.params t.tr, (t.tr.drop 9).length))
        (exec (.regopWrite .setParam 0xC001 []) (linked (List.replicate 4 .ok))) =
      some ([.frame false 0xC0, .frame true 0x01], 98) ∧
    shows (fun t => sdaLevels (t.tr.drop 6)) (exec (.entryWrite .setParam 0xC001 []) linkedOnly) =
      some (bits [0, 1, 1, 0, 0, 0, 0, 0, 0, 1, 0, 0, 0, 0, 0, 0, 0, 1]) := by decide +kernel

/-- R170 on a table of two entries: the index, the name at a milestone, the reset pulse first. -/
theorem test_progRun :
    let s : State := { linkedOnly with
      params := { Config.paramsEx with table := [.write .selectPage 0xFF01 [], .delay 100], milestones := [0] } }
    shows (fun t => (t.ppIndex, t.ppState, t.ppDone)) (exec .progRun s) = some (2, .page1Programmed, true) ∧
    shows (fun t => ((t.tr.drop 6).length, t.tr[6]?, t.tr.getLast?)) (exec .progRun s) =
      some (96, some (.delayMs 10), some (.delayMs 100)) := by decide +kernel

/-! TimingStreamer. -/

/-- V26. -/
theorem test_tsConfigure :
    shows (fun t => (t.tr, t.tsState, t.tsCfg.timing.hbp))
        (exec (goodConfig goodTiming) { State.reset with pixIfAnswers := [.present] }) =
      some ([.pixIfProbe .present], .configured, 3) ∧
    shows (fun t => (t.tr, t.tsState, t.lastResult))
        (exec (goodConfig goodTiming) { State.reset with pixIfAnswers := [.absent] }) =
      some ([.pixIfProbe .absent], .unconfigured, some (.error (.transportAbsent .tsConfigure))) := by decide

/-- V27. -/
theorem test_tsConfigure_refuses :
    refusalOf (exec (goodConfig { goodTiming with hpw := 0 }) State.reset) = some .badConfig ∧
    refusalOf (exec (goodConfig goodTiming) (configured .single [])) = some .alreadyConfigured := by decide

/-- V28. -/
theorem test_tsStart_single :
    shows (fun t => (t.tr, t.tsState, t.fbPool, t.fb0.isSome)) (exec .tsStart (configured .single [.fail, .ok])) =
      some ([.alloc .primary .fail, .alloc .secondary .ok], .running, .secondary, true) ∧
    shows (fun t => (t.tr, t.tsState, t.fb0, t.lastResult)) (exec .tsStart (configured .single [.fail, .fail])) =
      some ([.alloc .primary .fail, .alloc .secondary .fail], .configured, none, some (.error (.alloc .tsStart))) := by
  decide

/-- V29(b), (c). -/
theorem test_tsStart_double :
    shows (fun t => (t.tr, t.tsState, t.fb0, t.fb1)) (exec .tsStart (configured .double [.ok, .fail, .fail])) =
      some ([.alloc .primary .ok, .alloc .primary .fail, .alloc .secondary .fail], .configured, none, none) ∧
    shows (fun t => (t.tr, t.tsState, t.fbPool)) (exec .tsStart (configured .double [.fail, .ok, .ok])) =
      some ([.alloc .primary .fail, .alloc .secondary .ok, .alloc .primary .ok], .running, .primary) := by decide

/-- R185 (log 34): after a direct TS_START that answered E_ALLOC a second one runs. -/
theorem test_tsStart_again :
    shows (fun t => (t.lastResult, refusalOf (exec .tsStart t))) (exec .tsStart (configured .single [.fail, .fail])) =
      some (some (.error (.alloc .tsStart)), none) := by decide

/-- R287, V62: after a failed BRING_UP a direct TS_START is refused, although the state is CONFIGURED. -/
theorem test_tsStart_after_failure :
    let s : State := { configured .single [.ok] with bringupError := some (.alloc .tsStart) }
    s.tsState = .configured ∧ refusalOf (exec .tsStart s) = some .bringUpFailed ∧
    refusalOf (exec .tsStart State.reset) = some .notConfiguredOrAlreadyRunning := by decide

/-- V30: the first pixel of the frame, and where the counters go. -/
theorem test_tsTick :
    shows (fun t => (t.scan, t.hcnt, t.vcnt))
        (exec .tsTick (ready .single { drawn := 0, cells := [(0, 0x1F), (1, 0xF8)] } 5 3)) =
      some ([.pix true true true 0xF81F], 6, 3) ∧
    shows (fun t => (t.hcnt, t.vcnt, t.frameNo)) (exec .tsTick (ready .single fresh 488 485)) = some (0, 0, 0) := by decide

/-- V34: the flip on the boundary. -/
theorem test_tsTick_flip :
    shows (fun t => (t.front, t.flipPending, t.frameNo, t.scan.head?))
        (exec .tsTick { ready .double fresh 0 0 with flipPending := true }) =
      some (.one, false, 1, some .flip) := by decide

/-- V33. -/
theorem test_tsNotify :
    shows (fun t => (t.flipPending, t.flipRect)) (exec (.tsNotify ⟨10, 20, 30, 40⟩) (ready .double fresh 7 7)) =
      some (true, ⟨10, 20, 30, 40⟩) ∧
    refusalOf (exec (.tsNotify ⟨0, 0, 480, 480⟩) State.reset) = some .notRunning := by decide

/-- V30: pin levels of 0xF81F. -/
theorem test_pins :
    [0, 4, 5, 10, 11, 15, 16, 19, 20].map
        (pinSignal (ready .single fresh 0 0).tsCfg true true true 0xF81F) =
      [.level true, .level true, .level false, .level false, .level true, .level true, .level true, .clockCycle,
        .notDriven] := by decide

/-! PanelBringup. -/

/-- V40. -/
theorem test_backlightOn :
    shows (fun t => (t.tr.drop 6, t.bl)) (exec .backlightOn linkedOnly) = some ([.line .bl true], .driven true) := by decide

/-- V60. -/
theorem test_bringUp_probe_fails :
    shows (fun t => (t.tr, t.bringupError, t.panelReady))
        (exec .bringUp { withAcks [.nack] with pixIfAnswers := [.absent], allocAnswers := [.fail, .fail] }) =
      some ([.i2cProbe 0x20 .nack, .diag (.transportAbsent .expInit)], some (.transportAbsent .expInit), false) := by decide

/-- R220, R256: with every stage done BRING_UP still waits for its return; a tick may come first. -/
theorem test_bringUp_returns :
    let s : State := { ready .single fresh 3 0 with panelReady := false, bringUpReturning := true }
    shows (fun t => (t.panelReady, t.bringUpReturning, t.lastResult)) (step { s with turns := [.sequencer] }) =
      some (true, false, some .ready) ∧
    shows (fun t => (t.panelReady, t.bringUpReturning, t.hcnt)) (step { s with turns := [.streamer] }) =
      some (false, true, 4) ∧
    refusalOf (exec .bringUp s) = some .bringUpOnce := by decide

/-- V63. -/
theorem test_bringUp_once : refusalOf (exec .bringUp (ready .single fresh 0 0)) = some .bringUpOnce := by decide

/-- V41: the two pixels, low byte first, and nothing else written. -/
theorem test_flush :
    shows (fun t => t.fb0.map (·.cells)) (exec (.flush ⟨1, 0, 3, 1⟩ [0xAAAA, 0xBBCC]) (ready .single fresh 9 9)) =
      some (some [(2, 0xAA), (3, 0xAA), (4, 0xCC), (5, 0xBB)]) ∧
    shows (fun t => (t.fb1.map (·.cells), t.fb0, t.flipPending))
        (exec (.flush ⟨478, 478, 480, 480⟩ [1, 2, 3, 4]) (ready .double fresh 9 9)) =
      some (some [(459836, 1), (459837, 0), (459838, 2), (459839, 0), (460796, 3), (460797, 0), (460798, 4), (460799, 0)],
        some fresh, false) := by decide

/-- V44, V47, V48, V49, V50. -/
theorem test_flush_rejects :
    [⟨0, 0, 481, 480⟩, ⟨5, 5, 5, 9⟩, ⟨10, 10, 5, 20⟩, ⟨500, 500, 510, 510⟩].map
        (fun r : Rect => shows (fun t => (t.lastResult == some (.error (.invalidRegion r)), t.fb0 == some fresh, t.flush))
          (exec (.flush r [1]) (ready .single fresh 9 9))) = List.replicate 4 (some (true, true, none)) ∧
    refusalOf (exec (.flush ⟨0, 0, 2, 2⟩ [1, 2, 3]) (ready .single fresh 9 9)) = some .badLength ∧
    refusalOf (exec (.flush ⟨0, 0, 1, 1⟩ [1]) State.reset) = some .noHandle := by decide

/-- R230, R231, R207: the Writer notifies, waits, copies back, completes. -/
theorem test_writer :
    let phase : State → Option FlushPhase := fun t => t.flush.map (·.phase)
    (shows (fun t => (phase t, t.flipPending)) (step (flying .single .notify false)) = some (some .complete, false) ∧
      shows (fun t => (t.flush, t.lastResult)) (step (flying .single .complete false)) = some (none, some .ok)) ∧
    shows (fun t => (phase t, t.flipPending, t.flipRect)) (step (flying .double .notify false)) =
      some (some .flip, true, ⟨1, 0, 3, 1⟩) ∧
    shows phase (step (flying .double .flip true)) = some (some .flip) ∧
    shows (fun t => (phase t, t.fb0.map fun g => g.cells.map (·.1)))
      (step { flying .double .flip false with front := .one }) = some (some .complete, some [2, 3, 4, 5]) ∧
    shows (fun t => (t.flush, t.lastResult)) (step (flying .double .complete false)) = some (none, some .ok) := by decide

/-- R198, R207 (P4): a frame boundary before TS_NOTIFY flips nothing; the next one after it does. -/
theorem test_flush_boundary :
    let s : State := { flying .double .notify false with hcnt := 0, vcnt := 0 }
    shows (fun t => (t.front, t.frameNo, t.flush.map (·.phase))) (steps 2 { s with turns := [.streamer, .writer] }) =
      some (.zero, 1, some .flip) ∧
    shows (fun t => (t.front, t.frameNo, t.flipPending)) (steps 2 { s with turns := [.writer, .streamer] }) =
      some (.one, 1, false) := by decide

/-- R248, R60 (log 33): while a FLUSH is in flight a direct TS_NOTIFY waits, and a second FLUSH is refused (R233). -/
theorem test_flush_alone :
    let s : State := { flying .double .flip false with turns := [.request] }
    shows (fun t => (t.flipPending, t.requests.length))
      (step { s with requests := [⟨.descriptor, [0x32, 0, 0, 1, 1]⟩] }) = some (false, 1) ∧
    refusalOf (step { s with requests := [⟨.descriptor, [0x42, 0, 0, 1, 1, 1, 9]⟩] }) = some .concurrentFlush := by decide

/-- A table word placed for fetching runs in the next step (V10). -/
theorem test_fetch : shows (fun t => t.linkConfigured) (step (State.reset.withFetchWord 8 0x10)) = some true := by decide

/-! Witnesses: for each obligation with hypotheses, operands and states that meet them together. -/

/-- UnknownOpIdIsRefused, at both ends of the free numbers. -/
theorem witness_unknown_op :
    let s : Nat → State := fun op => { State.reset with turns := [.request], requests := [⟨.descriptor, [op]⟩] }
    (s 0).turns = [.request] ∧ (s 0).bringUpReturning = false ∧ (s 0x87).requests = [⟨.descriptor, [0x87]⟩] ∧
      0 ∉ [0x01, 0x02, 0x03, 0x10, 0x11, 0x12, 0x20, 0x21, 0x30, 0x31, 0x32, 0x40, 0x41, 0x42,
        0x80, 0x81, 0x82, 0x83, 0x84, 0x85, 0x86] ∧ refusalOf (step (s 0x87)) = some (.badRequest (.unknownOpId 0x87)) := by
  decide

/-- StepRunsTheDecodedRequest in its first two clauses, and FetchedWordRunsNext; the state of `test_flush_alone` meets
the third. -/
theorem witness_step_runs :
    let s : Bool → State := fun b =>
      { State.reset with bringUpReturning := b, turns := [.request], requests := [⟨.descriptor, [0x10]⟩] }
    (∀ b, (s b).turns = [.request] ∧ (s b).requests = [⟨.descriptor, [0x10]⟩] ∧ (s b).bringUpReturning = b ∧
        (s b).flush = none) ∧
      decode ⟨.descriptor, [0x10]⟩ = .ok .linkInit ∧ decodeTableWord 8 0x10 = some .linkInit :=
  ⟨fun _ => ⟨rfl, rfl, rfl, rfl⟩, rfl, rfl⟩

/-- StreamerTurnIsOneTick, both clauses. -/
theorem witness_streamer_turn :
    ({ State.reset with turns := [.streamer] }).tsState ≠ .running ∧
      ({ ready .single fresh 0 0 with turns := [.streamer] }).tsState = .running := by decide

/-- ExpSetWritesTheMirror, ExpSetUninitialisedIsNoOp, LinkOperationsNeedLinkInit and every statement about an
operation of the link. -/
theorem witness_bus_and_link :
    (linked [.ok]).expInitialized = true ∧ (linked [.ok]).linkConfigured = true ∧ State.reset.expInitialized = false ∧
      State.reset.linkConfigured = false ∧ needsLink (.delayUs 0) = true ∧ linkedOnly.expInitialized = false ∧
      linkedOnly.linkConfigured = true := by decide

/-- ExpInitRunsThreeTransactions, all four clauses. -/
theorem witness_exp_init :
    ackAt (withAcks [.nack]) 0 = .nack ∧ (ackAt (withAcks [.ok, .nack]) 0 = .ok ∧ ackAt (withAcks [.ok, .nack]) 1 = .nack) ∧
      [0, 1, 2].map (ackAt (withAcks [.ok, .ok, .nack])) = [.ok, .ok, .nack] ∧
      [0, 1, 2].map (ackAt (withAcks [.ok, .ok, .ok])) = [.ok, .ok, .ok] := by decide

theorem linked_expanderInv (acks : List Ack) : ExpanderInv (linked acks) where
  mirrorBits := fun _ _ _ => rfl
  dirBits := by
    intro k hc hr
    change k ≠ 4 at hc
    change k ≠ 5 at hr
    change (0xFFCF#16).getLsbD k.val = (0xFFFF#16).getLsbD k.val
    revert k
    decide
  mirrorAgrees := fun _ _ => rfl
  driven := fun _ => by
    change (0xFFCF#16).getLsbD 4 = false ∧ (0xFFCF#16).getLsbD 5 = false
    decide

/-- ExpanderInvariantIsKept. -/
theorem witness_expander_inv :
    isBusWrite (.expSet .cs false) = false ∧ paramsWellFormed (linked [.ok]).params = true ∧ ExpanderInv (linked [.ok]) ∧
      ∃ t, exec (.expSet .cs false) (linked [.ok]) = .next t :=
  ⟨rfl, by decide, linked_expanderInv _, _, rfl⟩

theorem linked_traceInv (acks : List Ack) : TraceInv (linked acks) := ⟨rfl, rfl, rfl, rfl, rfl⟩

/-- ReceiverGetsTheFramesSent, for SEND_DATA and for PROG_RUN on a table of one entry. -/
theorem witness_receiver :
    (framesOf (linked []).params (.sendData 0xA5) = some [(true, 0xA5)] ∧
      framesOf { (linked []).params with table := [.write .setParam 0x0102 [3]] } .progRun =
        some [(false, 1), (true, 2), (true, 3)] ∧ (linked []).params.csBit ≠ (linked []).params.rstBit) ∧
    ∃ t, (exec (.sendData 0xA5) (linked [.ok, .ok]) = .next t ∧
        (newEvents (linked [.ok, .ok]) t).all isAcked = true) ∧
      TraceInv (linked [.ok, .ok]) ∧ csLine (linked [.ok, .ok]) = some true ∧
      (linked [.ok, .ok]).clk = .driven false ∧ (linked [.ok, .ok]).expInitialized = true ∧
      (linked [.ok, .ok]).linkConfigured = true :=
  let ⟨t, h⟩ := next_of_shows (f := fun t => (newEvents (linked [.ok, .ok]) t).all isAcked) (x := true)
    (a := exec (.sendData 0xA5) (linked [.ok, .ok])) (by decide)
  ⟨by decide, t, h, linked_traceInv _, rfl, rfl, rfl, rfl⟩

/-- R177 on a table of two WRITE entries and a delay: the frames of each entry, in index order, and nothing of the
delay. -/
theorem test_progRun_frames :
    let s : State := { linked (List.replicate 12 .ok) with
      params := { Config.paramsEx with
        table := [.write .selectPage 0xFF01 [0x77], .delay 100, .write .setParam 0x1100 []], milestones := [] } }
    shows (fun t => (rx t.params t.tr, (newEvents s t).all isAcked)) (exec .progRun s) =
      some ([.frame false 0xFF, .frame true 0x01, .frame true 0x77, .frame false 0x11, .frame true 0x00], true) := by
  decide +kernel

/-- ProgRunReplaysTheWholeTable, and PanelResetPulsesReset's clause about the hold. -/
theorem witness_prog_run :
    (linked []).linkConfigured = true ∧ paramsWellFormed (linked []).params = true ∧
      delaysInPlace (linked []).params.table (linked []).params.milestones = true := by decide

/-- ProgRunDependsOnlyOnMirrorAndAnswers, for two states that differ. -/
theorem witness_prog_run_twice :
    ∃ t t', exec .progRun (linked []) = .next t ∧ exec .progRun { linked [] with ppIndex := 3, bl := .driven true } = .next t' :=
  ⟨_, _, rfl, rfl⟩

/-- TsConfigureLatchesOnce, all four clauses. -/
theorem witness_ts_configure :
    (configured .single []).tsState ≠ .unconfigured ∧ State.reset.tsState = .unconfigured ∧
      configWellFormed { goodTiming with hpw := 0 } Config.paramsEx.dataPins Config.paramsEx.ctrlPins = false ∧
      configWellFormed goodTiming Config.paramsEx.dataPins Config.paramsEx.ctrlPins = true ∧
      pixIfNext { State.reset with pixIfAnswers := [.absent] } = .absent ∧
      pixIfNext { State.reset with pixIfAnswers := [.present] } = .present := by decide

/-- TsStartAllocatesOrFails and TsStartCompletes, in both modes; the state of `test_tsStart_after_failure` meets the
clause about a failed BRING_UP. -/
theorem witness_ts_start :
    (configured .single []).bringupError = none ∧ (configured .double []).bringupError = none ∧ State.reset.tsState ≠ .configured ∧ (configured .double [.ok, .ok, .fail]).tsState = .configured ∧
      (configured .double [.ok, .ok, .fail]).allocAnswers = List.replicate (bufferCount .double) .ok ++ [.fail] ∧
      (configured .single [.ok]).allocAnswers = List.replicate (bufferCount .single) .ok ++ [] := by decide

theorem ready_buffersExist (m : StreamMode) (fb : Framebuffer) (h v : Nat) : buffersExist (ready m fb h v) := by
  cases m
  · exact ⟨rfl, nofun⟩
  · exact ⟨rfl, fun _ => rfl⟩

/-- TickScansOnePixelClock, ScanPositionAfterTicks and VideoFrameHasItsCounts. -/
theorem witness_ticks :
    (ready .double fresh 0 0).tsState = .running ∧ buffersExist (ready .double fresh 0 0) ∧
      (ready .double fresh 0 0).hcnt = 0 ∧ (ready .double fresh 0 0).vcnt = 0 :=
  ⟨rfl, ready_buffersExist _ _ _ _, rfl, rfl⟩

/-- VideoFrameHasItsCounts, the clause about steps of all agents: a run that ends with the frame's last Pix. -/
theorem witness_frame_steps :
    let s : State := { ready .double fresh 0 0 with turns := List.replicate (489 * 486) .streamer }
    ∃ n t, steps n s = .next t ∧ (pixOnly (newScan s t)).length = htotal s.tsCfg.timing * vtotal s.tsCfg.timing := by
  intro s
  obtain ⟨t, es, ht, hs, hn⟩ := steps_streamer (s := s) rfl (ready_buffersExist .double fresh 0 0) rfl
  exact ⟨_, t, ht, by rw [newScan, hs, List.drop_left, hn]; rfl⟩

/-- TickReadsThePixel, at the first and at the last pixel. -/
theorem witness_tick_pixel :
    let s : Nat → Nat → State := fun x y => ready .single fresh (5 + x) (3 + y)
    (∃ t, exec .tsTick (s 0 0) = .next t) ∧ (∃ t, exec .tsTick (s 479 479) = .next t) ∧
      bufferOf (s 0 0) (frontAfter (s 0 0)) = some fresh ∧ (s 479 479).flush = none ∧ (s 479 479).earlierViews = [] ∧
      (s 479 479).hcnt = (s 0 0).tsCfg.timing.hpw + (s 0 0).tsCfg.timing.hbp + 479 ∧
      (s 479 479).vcnt = (s 0 0).tsCfg.timing.vpw + (s 0 0).tsCfg.timing.vbp + 479 :=
  ⟨⟨_, rfl⟩, ⟨_, rfl⟩, rfl, rfl, rfl, rfl, rfl⟩

/-- TickReadsInsideTheWindow, with a FLUSH racing and an earlier view in the window. -/
theorem witness_tick_window :
    let s : State := { flying .single .notify false with hcnt := 5, vcnt := 3, earlierViews := [.stable fresh] }
    (∃ t, exec .tsTick s = .next t) ∧ bufferOf s (frontAfter s) = some fresh ∧ s.hcnt = 5 ∧ s.vcnt = 3 :=
  ⟨⟨_, rfl⟩, rfl, rfl, rfl⟩

theorem memRead_const {m : Memory} {v : Byte} {a : Nat} (hv : ∀ c ∈ m, c.2 = v) (ha : ∃ c ∈ m, c.1 = a) :
    memRead m a = some v := by
  induction m with
  | nil => simp at ha
  | cons c m ih =>
    obtain ⟨k, w⟩ := c
    by_cases h : a = k
    · have : w = v := hv (k, w) (by simp)
      simp [memRead, h, this]
    · obtain ⟨d, hd, rfl⟩ := ha
      have hm : d ∈ m := by
        rcases List.mem_cons.1 hd with e | e
        · exact absurd (by rw [e]) h
        · exact e
      simp only [memRead, h, if_false]
      exact ih (fun c hc => hv c (List.mem_cons_of_mem _ hc)) ⟨d, hm, rfl⟩

/-- SolidColourReachesTheBus: a buffer of one colour, and a first tick. -/
theorem witness_solid :
    ∃ fb : Framebuffer, (∀ k, k < Config.fbPixels → fbPixel fb k = 0x5A5A) ∧
      (ready .single fb 0 0).flush = none ∧ bufferOf (ready .single fb 0 0) (frontAfter (ready .single fb 0 0)) = some fb ∧
      ∃ t, ticks 1 (ready .single fb 0 0) = .next t := by
  refine ⟨{ drawn := 0, cells := (List.range (2 * Config.fbPixels)).map fun a => (a, 0x5A) }, fun k hk => ?_, rfl, rfl, _, rfl⟩
  have hr : ∀ a, a < 2 * Config.fbPixels →
      memRead ((List.range (2 * Config.fbPixels)).map fun a => (a, (0x5A : Byte))) a = some 0x5A := by
    intro a ha
    refine memRead_const ?_ ⟨(a, 0x5A), ?_, rfl⟩
    · simp
    · exact List.mem_map.2 ⟨a, List.mem_range.2 ha, rfl⟩
  simp only [fbPixel, fbByte]
  rw [hr _ (by omega), hr _ (by omega)]
  exact (by decide : joinBytes 0x5A 0x5A = 0x5A5A)

/-- PinsCarryThePixel. -/
theorem witness_pins :
    configWellFormed (ready .single fresh 0 0).tsCfg.timing (ready .single fresh 0 0).tsCfg.dataPins
      (ready .single fresh 0 0).tsCfg.ctrlPins = true := by decide

/-- TsNotifyRequestsTheFlip, all clauses. -/
theorem witness_ts_notify :
    State.reset.tsState ≠ .running ∧ (ready .single fresh 0 0).tsState = .running ∧
      (ready .single fresh 0 0).params.streamMode = .single ∧ (ready .double fresh 0 0).params.streamMode = .double ∧
      (ready .double fresh 0 0).flipPending = false ∧ (flying .double .flip true).flipPending = true ∧
      (flying .double .flip true).tsState = .running ∧ rectValid ⟨479, 479, 480, 480⟩ = true ∧
      rectValid ⟨480, 479, 480, 480⟩ = false ∧ rectValid ⟨479, 479, 480, 481⟩ = false := by decide

/-- BringUpRunsOnce, BringUpStopsAtAFailedProbe and BringUpIsReadyOrFailsLoudly; the last one's clauses about the return
and about a tick before it are met by the states of `test_bringUp_returns`. -/
theorem witness_bring_up :
    (ready .single fresh 0 0).panelReady = true ∧ (withAcks [.nack]).bringUpReturning = false ∧
      ({ State.reset with turns := [.sequencer] }).bringUpReturning = false ∧
      ({ State.reset with bringupError := some (.alloc .tsStart) }).bringupError.isSome = true ∧
      (withAcks [.nack]).panelReady = false ∧ (withAcks [.nack]).bringupError = none ∧ ackAt (withAcks [.nack]) 0 = .nack ∧
      (withAcks [.nack]).tsState ≠ .running ∧ (nextOf (exec .bringUp (withAcks [.nack]))).isSome = true := by decide

/-- BringUpRunsTheFiveStages, in DOUBLE mode. -/
theorem witness_bring_up_completes :
    let s : State := { State.resetWith (paramsOf .double) with
      acks := [.ok, .ok, .ok], pixIfAnswers := [.present], allocAnswers := [.ok, .ok] }
    s.panelReady = false ∧ s.bringUpReturning = false ∧ s.bringupError = none ∧ s.tsState = .unconfigured ∧
      paramsWellFormed s.params = true ∧ [0, 1, 2].map (ackAt s) = [.ok, .ok, .ok] ∧ s.pixIfAnswers.head? = some .present ∧
      s.allocAnswers = List.replicate (bufferCount s.params.streamMode) .ok ++ [] := by decide

/-- FlushRejectsABadRegion and FlushRefusesInOrder. -/
theorem witness_flush_refuses :
    (ready .single fresh 0 0).panelReady = true ∧ (ready .single fresh 0 0).flush = none ∧
      ¬(0 < 481 ∧ 481 ≤ 480 ∧ 0 < 480 ∧ 480 ≤ 480) ∧ State.reset.panelReady = false ∧
      (flying .single .notify false).panelReady = true ∧ (flying .single .notify false).flush.isSome = true ∧
      ([] : List Pixel).length ≠ (480 - 479) * (480 - 479) := by decide

/-- FlushWritesItsRectangle, in both modes, at the last pixel. -/
theorem witness_flush :
    let ok : StreamMode → Bool := fun m =>
      let s := ready m fresh 7 100
      s.panelReady && s.flush.isNone && s.tsState == .running && rectValid ⟨479, 479, 480, 480⟩ &&
        ([9] : List Pixel).length == (480 - 479) * (480 - 479) && (bufferOf s (stagingOf s)).isSome && !s.flipPending
    ok .single = true ∧ ok .double = true := by decide

/-- SingleFlushCompletes and DoubleFlushWaitsThenCopiesBack, in every clause. -/
theorem witness_writer :
    (∀ m ph p, (flying m ph p).turns = [.writer] ∧ (flying m ph p).params.streamMode = m ∧
      (flying m ph p).tsState = .running ∧ (flying m ph p).flipPending = p ∧
      (flying m ph p).flush = some { rect := ⟨1, 0, 3, 1⟩, before := fresh, phase := ph } ∧
      bufferOf (flying m ph p) (flying m ph p).front = some fresh) ∧
    (∀ ph p, (bufferOf (flying .double ph p) (stagingOf (flying .double ph p))).isSome = true) ∧
    rectValid ⟨1, 0, 3, 1⟩ = true :=
  ⟨fun _ _ _ => ⟨rfl, rfl, rfl, rfl, rfl, rfl⟩, fun _ _ => rfl, by decide⟩

/-- DisjointFlushesBothStay, its first part: a FLUSH of DOUBLE mode that completes with ticks between all of the Writer's
moves, and one of SINGLE mode. -/
theorem witness_flush_run :
    let go : StreamMode → List Turn → Option (Bool × Bool × Buffer) := fun m ts =>
      let s : State := { ready m fresh 488 485 with turns := ts }
      match exec (.flush ⟨0, 0, 1, 1⟩ [9]) s with
      | .next t => shows (fun u => (t.flush.isSome && u.flush.isNone, u.requests == t.requests, u.front)) (steps ts.length t)
      | .fault _ => none
      | .refused _ => none
    go .double [.streamer, .writer, .request, .streamer, .writer, .streamer, .writer] =
      some (true, true, .one) ∧
    go .double [.writer, .streamer, .writer, .streamer, .writer, .request, .streamer, .writer] = some (true, true, .one) ∧
    go .single [.streamer, .writer, .streamer, .writer] = some (true, true, .zero) := by decide

/-- DisjointFlushesBothStay, its second part, in both modes: two rectangles that meet at an edge, no tick in SINGLE mode and the ticks of
a video frame in DOUBLE mode, from the last position of a frame. -/
theorem witness_disjoint :
    rectValid ⟨0, 0, 1, 1⟩ = true ∧ rectValid ⟨1, 0, 2, 1⟩ = true ∧
      (∀ x y, ¬(rectCovers ⟨0, 0, 1, 1⟩ x y ∧ rectCovers ⟨1, 0, 2, 1⟩ x y)) ∧
      ([1] : List Pixel).length = rectWidth ⟨1, 0, 2, 1⟩ * rectHeight ⟨1, 0, 2, 1⟩ ∧
      ∀ m, let s := ready m fresh 488 485
        s.params.streamMode = m ∧ s.panelReady = true ∧ s.flush = none ∧ s.tsState = .running ∧ buffersExist s ∧
          s.hcnt < htotal s.tsCfg.timing ∧ s.vcnt < vtotal s.tsCfg.timing ∧ s.flipPending = false ∧
            frameTicks s = 489 * 486 := by
  refine ⟨by decide, by decide, ?_, by decide, fun m => ⟨rfl, rfl, rfl, rfl, ready_buffersExist _ _ _ _, ?_⟩⟩
  · rintro x y ⟨⟨_, h, _⟩, ⟨h', _⟩⟩
    change x < 1 at h
    change 1 ≤ x at h'
    omega
  · cases m <;> exact ⟨by decide, by decide, rfl, rfl⟩

/-- OnlyFlushAndStartTouchFramebuffers. -/
theorem witness_no_framebuffer :
    touchesFramebuffer .tsTick = false ∧ ∃ t, exec .tsTick (ready .double fresh 0 0) = .next t := ⟨rfl, _, rfl⟩

/-- DoubleModeFrontIsStableWithinAFrame, for a FLUSH, and the statements about every step. -/
theorem witness_double_step :
    let s : State := { ready .double fresh 7 100 with
      turns := [.request], requests := [⟨.descriptor, [0x42, 0, 0, 1, 1, 1, 9]⟩] }
    s.params.streamMode = .double ∧ s.tsState = .running ∧ atBoundary s = false ∧
      s.expInitialized = true ∧ s.linkConfigured = true ∧ s.panelReady = true ∧ (nextOf (step s)).isSome = true := by decide

/-- LatchedStatusStays, a recorded error, and the Streamer not RUNNING. -/
theorem witness_error_stays :
    let s : State := { State.reset with bringupError := some (.alloc .tsStart), turns := [.streamer] }
    s.bringupError = some (.alloc .tsStart) ∧ s.tsState ≠ .running ∧ (nextOf (step s)).isSome = true := by decide

/-- TraceInvariantIsKept. -/
theorem witness_trace_inv :
    TraceInv { linked [.ok] with turns := [.request], requests := [⟨.pseudo, [0, 0]⟩] } ∧
      ∃ t, step { linked [.ok] with turns := [.request], requests := [⟨.pseudo, [0, 0]⟩] } = .next t :=
  ⟨⟨rfl, rfl, rfl, rfl, rfl⟩, _, rfl⟩

theorem ready_sysInv (m : StreamMode) (h v : Nat) (hh : h < 489) (hv : v < 486) : SysInv (ready m fresh h v) where
  params := by cases m <;> exact (by decide : paramsWellFormed Config.paramsEx = true)
  mirror := fun _ _ _ => rfl
  pads := ⟨false, false, true, rfl, rfl, rfl⟩
  index := by cases m <;> exact Nat.le_refl 14
  done := fun _ => ⟨by cases m <;> rfl, rfl⟩
  config := fun _ => by cases m <;> exact (by decide :
    configWellFormed goodTiming Config.paramsEx.dataPins Config.paramsEx.ctrlPins = true)
  scanning := fun _ => by cases m <;> exact ⟨hh, hv⟩
  buffers := fun _ => ⟨rfl, fun e => by cases m <;> first | rfl | cases e⟩
  singleMode := fun _ => ⟨rfl, rfl⟩
  doubleMode := fun _ => rfl
  memory := by cases m <;> exact ⟨rfl, rfl⟩
  ready := fun _ => ⟨rfl, rfl, rfl, rfl, rfl⟩
  returning := nofun
  flight := nofun
  noFlip := nofun

/-- SystemInvariantIsKept and NoStepFaults in its first clause: a running state on the last pixel clock of a frame, and its tick. -/
theorem witness_sys_inv :
    let s : State := { ready .double fresh 488 485 with turns := [.streamer] }
    SysInv s ∧ ∃ t, step s = .next t :=
  have h := ready_sysInv .double 488 485 (by decide) (by decide)
  ⟨⟨h.params, h.mirror, h.pads, h.index, h.done, h.config, h.scanning, h.buffers, h.singleMode, h.doubleMode, h.memory,
    h.ready, h.returning, h.flight, h.noFlip⟩, _, rfl⟩

/-- NoStepFaults in its second clause: the Writer calls TS_NOTIFY. -/
theorem witness_writer_inv :
    SysInv (flying .double .notify false) ∧ (flying .double .notify false).turns = [.writer] :=
  have h := ready_sysInv .double 7 100 (by decide) (by decide)
  ⟨⟨h.params, h.mirror, h.pads, h.index, h.done, h.config, h.scanning, h.buffers, h.singleMode, h.doubleMode, h.memory,
    h.ready, h.returning, fun _ e => by cases e; exact ⟨rfl, rfl, rfl⟩, fun _ _ _ => rfl⟩, rfl⟩

end Sys2Proof.Tests
end

section
/-! PROOF. ExpanderBus (40_expander_bus.md): EXP_INIT, EXP_SET with its pseudo-operations, EXP_GET. -/

namespace Sys2Proof.Machine

/-! Closed forms: a write to each of the chip's registers, and EXP_INIT by the answers it gets. -/

theorem expanderWrite_expRegDir (w : Word16) (s : State) :
    expanderWrite Config.expRegDir w s = (ackAt s 0, { afterAcks 1 s with
      expHwDir := chipAfter s.expHwDir w (ackAt s 0), tr := s.tr ++ [dirWrite s.params w (ackAt s 0)] }) :=
  expanderWrite_eq Config.expRegDir w s

theorem expanderWrite_expRegOut (w : Word16) (s : State) :
    expanderWrite Config.expRegOut w s = (ackAt s 0, { afterAcks 1 s with
      expHwOut := chipAfter s.expHwOut w (ackAt s 0), tr := s.tr ++ [outWrite s.params w (ackAt s 0)] }) :=
  expanderWrite_eq Config.expRegOut w s

/-- EXP_INIT after its acknowledged probe (R111). -/
def expInitProbed (s : State) : State :=
  { afterAcks 1 s with tr := s.tr ++ [.i2cProbe s.params.expAddr .ok] }

/-- EXP_INIT after its direction write with this answer (R110). -/
def expInitDirWritten (r : Ack) (s : State) : State :=
  { afterAcks 2 s with
    expHwDir := chipAfter s.expHwDir (initDirWord s.params) r,
    tr := s.tr ++ [.i2cProbe s.params.expAddr .ok, dirWrite s.params (initDirWord s.params) r] }

/-- EXP_INIT after its output write with this answer (R110). -/
def expInitOutWritten (r : Ack) (s : State) : State :=
  { afterAcks 3 s with
    expHwDir := initDirWord s.params,
    expHwOut := chipAfter s.expHwOut (initOutWord s.params) r,
    tr := s.tr ++ [.i2cProbe s.params.expAddr .ok, dirWrite s.params (initDirWord s.params) .ok,
      outWrite s.params (initOutWord s.params) r] }

theorem probe_of_ok {s : State} (h : ackAt s 0 = .ok) : probe s = (.ok, expInitProbed s) := by
  rw [probe_eq, h]
  rfl

theorem expanderWrite_expInitProbed (s : State) :
    expanderWrite Config.expRegDir (initDirWord s.params) (expInitProbed s) =
      (ackAt s 1, expInitDirWritten (ackAt s 1) s) := by
  have hack : ackAt (expInitProbed s) 0 = ackAt s 1 := ackAt_afterAcks s 1 0
  rw [expanderWrite_expRegDir, hack]
  simp [expInitProbed, expInitDirWritten, afterAcks]
  omega

theorem expanderWrite_expInitDirWritten (s : State) :
    expanderWrite Config.expRegOut (initOutWord s.params) (expInitDirWritten .ok s) =
      (ackAt s 2, expInitOutWritten (ackAt s 2) s) := by
  have hack : ackAt (expInitDirWritten .ok s) 0 = ackAt s 2 := ackAt_afterAcks s 2 0
  rw [expanderWrite_expRegOut, hack]
  simp [expInitDirWritten, expInitOutWritten, afterAcks, chipAfter]
  omega

/-- No answer to the probe: nothing else is attempted. -/
theorem expInit_of_probe_nack {s : State} (h0 : ackAt s 0 = .nack) :
    expInit s = ({ afterAcks 1 s with tr := s.tr ++ [.i2cProbe s.params.expAddr .nack] },
      some (.transportAbsent .expInit)) := by
  simp [expInit, probe_eq, h0]

/-- No answer to the direction write: the output write is not attempted. -/
theorem expInit_of_dirWrite_nack {s : State} (h0 : ackAt s 0 = .ok) (h1 : ackAt s 1 = .nack) :
    expInit s = (expInitDirWritten .nack s, some (.transportAbsent .expInit)) := by
  simp [expInit, probe_of_ok h0, expanderWrite_expInitProbed, h1]

/-- No answer to the output write: the direction register stays written, mirror and flag do not change. -/
theorem expInit_of_outWrite_nack {s : State} (h0 : ackAt s 0 = .ok) (h1 : ackAt s 1 = .ok)
    (h2 : ackAt s 2 = .nack) :
    expInit s = (expInitOutWritten .nack s, some (.transportAbsent .expInit)) := by
  simp [expInit, probe_of_ok h0, expanderWrite_expInitProbed, h1, expanderWrite_expInitDirWritten, h2]

/-- All three acknowledged: mirror and flag are written last. -/
theorem expInit_of_all_ok {s : State} (h0 : ackAt s 0 = .ok) (h1 : ackAt s 1 = .ok) (h2 : ackAt s 2 = .ok) :
    expInit s =
      ({ expInitOutWritten .ok s with expMirror := initOutWord s.params, expInitialized := true }, none) := by
  simp [expInit, probe_of_ok h0, expanderWrite_expInitProbed, h1, expanderWrite_expInitDirWritten, h2]

/-! What the host is answered. -/

theorem exec_expInit_raises {s t : State} {e : Err} (h : expInit s = (t, some e)) :
    exec .expInit s = .next (raiseError e t) :=
  congrArg (fun r => Host.Outcome.next (finish r)) h

theorem exec_expInit_ok {s t : State} (h : expInit s = (t, none)) : exec .expInit s = .next (returned .ok t) :=
  congrArg (fun r => Host.Outcome.next (finish r)) h

theorem exec_expSet (pin : Pin) (n : Level) (s : State) :
    exec (.expSet pin n) s = .next (returned .void (expSet pin n s)) := rfl

theorem exec_cs (n : Level) (s : State) : exec (.cs n) s = exec (.expSet .cs n) s := rfl

theorem exec_rst (n : Level) (s : State) : exec (.rst n) s = exec (.expSet .rst n) s := rfl

theorem exec_expSet_uninitialised {s : State} (pin : Pin) (n : Level) (h : s.expInitialized = false) :
    exec (.expSet pin n) s = .next { s with lastResult := some .void } := by
  rw [exec_expSet, expSet_uninitialised pin n h]
  rfl

theorem exec_expGet (pin : Pin) (s : State) :
    exec (.expGet pin) s =
      .next { s with lastResult := some (.level (s.expMirror.getLsbD (pinBit s.params pin).val)) } := rfl

/-- Operands that decode under op_id 0x03 name an EXP_GET of some pin (R100). -/
theorem decodeExpGet_ok {args : List Nat} {i : Instr} (h : decodeExpGet args = .ok i) : ∃ q, i = .expGet q := by
  match args, h with
  | [p], h =>
    cases hp : asPin p with
    | error e => simp [decodeExpGet, hp] at h
    | ok q => exact ⟨q, by simpa [decodeExpGet, hp, eq_comm] using h⟩
  | [], h => cases h
  | _ :: _ :: _, h => cases h

/-- Settles O14: one clause for each place the sequence can stop at. -/
theorem expInitRunsThreeTransactions : Obligations.ExpInitRunsThreeTransactions := by
  intro s p dir out absent
  refine ⟨rfl, fun h0 => ?_, fun h0 h1 => ?_, fun h0 h1 h2 => ?_, fun h0 h1 h2 => ?_⟩
  · exact exec_expInit_raises (expInit_of_probe_nack h0)
  · exact exec_expInit_raises (expInit_of_dirWrite_nack h0 h1)
  · exact exec_expInit_raises (expInit_of_outWrite_nack h0 h1 h2)
  · exact exec_expInit_ok (expInit_of_all_ok h0 h1 h2)

/-- Settles O11: the closed form of EXP_SET, which the pseudo-operations share. -/
theorem expSetWritesTheMirror : Obligations.ExpSetWritesTheMirror := by
  intro s pin n hinit bit m t
  have hset : exec (.expSet pin n) s = .next t := by
    rw [exec_expSet, expSet_eq pin n hinit]
    cases pin <;> rfl
  refine ⟨hset, ?_, ?_⟩
  · rintro rfl
    rw [exec_cs, hset]
  · rintro rfl
    rw [exec_rst, hset]

/-- Settles O12, for both pins and so for the two pseudo-operations. -/
theorem expSetUninitialisedIsNoOp : Obligations.ExpSetUninitialisedIsNoOp := fun _ pin n h =>
  ⟨exec_expSet_uninitialised pin n h, exec_expSet_uninitialised .cs n h, exec_expSet_uninitialised .rst n h⟩

/-- Settles O13: the answer by the pin's bit, the decoder by the shape of EXP_GET's operands. -/
theorem expGetReadsTheMirror : Obligations.ExpGetReadsTheMirror := by
  intro s pin bit
  have hexec : exec (.expGet pin) s =
      .next { s with lastResult := some (.level (s.expMirror.getLsbD bit.val)) } := by
    rw [exec_expGet]
    cases pin <;> rfl
  exact ⟨hexec, fun _ _ h => decodeExpGet_ok h⟩

end Sys2Proof.Machine
end

section
/-! PROOF. BitBangLink (41_bitbang_link.md): LINK_INIT, LINE_SET with its pseudo-operations, XFER. -/

namespace Sys2Proof.Machine

/-! Closed forms: the six events of LINK_INIT, one chip-select cycle. -/

theorem linkInit_eq (s : State) :
    linkInit s = { s with
      clk := .driven false, sda := .driven false, bl := .driven false, linkConfigured := true,
      tr := s.tr ++ linkInitEvents } := by
  simp [linkInit, lineSet, emit, linkInitEvents]

/-- XFER on an initialised bus once its nine bits are out: chip-select still asserted (R140). -/
def xferShifted (m : Level) (b : Byte) (s : State) : State :=
  { afterAcks 1 s with
    expMirror := insertBit s.expMirror s.params.csBit false,
    expHwOut := chipAfter s.expHwOut (insertBit s.expMirror s.params.csBit false) (ackAt s 0),
    clk := .driven false, sda := .driven (b.getLsbD 0),
    tr := s.tr ++ [outWrite s.params (insertBit s.expMirror s.params.csBit false) (ackAt s 0)] ++
      [.delayUs s.params.tCsSettleUs] ++ (wireBits m b).flatMap (bitEvents s.params.tBitUs) }

/-- The first half of XFER, up to the chip-select de-assert. -/
theorem shiftOut_asserted {s : State} (m : Level) (b : Byte) (h : s.expInitialized = true) :
    shiftOut (frameBits (frame9 m b)) (delayUs (expSet .cs false s).params.tCsSettleUs (expSet .cs false s)) =
      xferShifted m b s := by
  rw [expSet_eq .cs false h, shiftOut_frame]
  rfl

/-- XFER on an initialised bus: the de-assert starts from the mirror the assert left, and takes the next answer. -/
theorem xfer_initialised {s : State} (m : Level) (b : Byte) (h : s.expInitialized = true) :
    xfer m b s = { afterAcks 2 s with
      expMirror := mirrorAfterXfer s, expHwOut := outAfterXfer s s.expHwOut 0,
      clk := .driven false, sda := .driven (b.getLsbD 0),
      tr := s.tr ++ xferEvents s.params true s.expMirror m b (ackAt s 0) (ackAt s 1) } := by
  have hinit : (xferShifted m b s).expInitialized = true := h
  have hack : ackAt (xferShifted m b s) 0 = ackAt s 1 := ackAt_afterAcks s 1 0
  simp only [xfer, shiftOut_asserted m b h, expSet_eq .cs true hinit, hack]
  simp [xferShifted, delayUs, emit, afterAcks, pinBit, insertBit_insertBit, mirrorAfterXfer, outAfterXfer, xferEvents,
    busSet, h]
  omega

/-- XFER on an uninitialised bus: both EXP_SETs do nothing. -/
theorem xfer_uninitialised {s : State} (m : Level) (b : Byte) (h : s.expInitialized = false) :
    xfer m b s = { s with
      clk := .driven false, sda := .driven (b.getLsbD 0),
      tr := s.tr ++ xferEvents s.params false s.expMirror m b (ackAt s 0) (ackAt s 1) } := by
  simp [xfer, expSet, delayUs, emit, shiftOut_frame, xferEvents, busSet, h]

/-- XFER on either bus (R140). -/
theorem xfer_eq (m : Level) (b : Byte) (s : State) :
    xfer m b s = { afterBusAcks 2 s with
      expMirror := mirrorAfterXfer s, expHwOut := outAfterXfer s s.expHwOut 0,
      clk := .driven false, sda := .driven (b.getLsbD 0),
      tr := s.tr ++ xferEvents s.params s.expInitialized s.expMirror m b (ackAt s 0) (ackAt s 1) } := by
  cases h : s.expInitialized with
  | true => simp [xfer_initialised m b h, afterBusAcks, h]
  | false => simp [xfer_uninitialised m b h, afterBusAcks, mirrorAfterXfer, outAfterXfer, h]

/-! Counting the events of a chip-select cycle. -/

theorem length_bitEvents (t : Nat) (b : Level) : (bitEvents t b).length = 5 := rfl

theorem length_wireBits (m : Level) (p : Byte) : (wireBits m p).length = 9 := rfl

theorem length_busSet (p : Params) (init : Bool) (w : Word16) (r : Ack) :
    (busSet p init w r).length = if init then 1 else 0 := by
  cases init <;> rfl

/-- Nine bits of five events each, two delays, and one event for each bus write. -/
theorem length_xferEvents (p : Params) (init : Bool) (w : Word16) (m : Level) (b : Byte) (r0 r1 : Ack) :
    (xferEvents p init w m b r0 r1).length = if init then 49 else 47 := by
  have hbits : ((wireBits m b).flatMap (bitEvents p.tBitUs)).length = 45 := by
    simp [List.length_flatMap, length_bitEvents, length_wireBits]
  simp only [xferEvents, List.length_append, hbits, length_busSet, List.length_singleton]
  cases init <;> rfl

/-! What the host is answered. -/

/-- An operation that needs `link_configured`, where it is set (R131). -/
theorem whenLinked_linked (f : State → State) {s : State} (h : s.linkConfigured = true) :
    whenLinked f s = .next (returned .void (f s)) :=
  whenLinked_next.2 ⟨h, rfl⟩

theorem exec_linkInit (s : State) : exec .linkInit s = .next (returned .void (linkInit s)) := rfl

theorem exec_xfer (m : Level) (b : Byte) {s : State} (h : s.linkConfigured = true) :
    exec (.xfer m b) s = .next (returned .void (xfer m b s)) :=
  whenLinked_linked (xfer m b) h

theorem exec_lineSet (l : Line) (n : Level) {s : State} (h : s.linkConfigured = true) :
    exec (.lineSet l n) s = .next (returned .void (lineSet l n s)) :=
  whenLinked_linked (lineSet l n) h

theorem exec_clk (n : Level) (s : State) : exec (.clk n) s = exec (.lineSet .clk n) s := rfl

theorem exec_sda (n : Level) (s : State) : exec (.sda n) s = exec (.lineSet .sda n) s := rfl

theorem exec_bl (n : Level) (s : State) : exec (.bl n) s = exec (.lineSet .bl n) s := rfl

/-- A decoder that reads two operands in order answers, if at all, what it makes of two values. -/
theorem ok_of_two_operands {α β : Type} {x : Except DecodeError α} {y : Except DecodeError β}
    {mk : α → β → Instr} {i : Instr} (h : (do return mk (← x) (← y)) = Except.ok i) : ∃ a b, i = mk a b := by
  match x, y, h with
  | .ok a, .ok b, h => exact ⟨a, b, (Except.ok.inj h).symm⟩
  | .ok _, .error _, h => cases h
  | .error _, _, h => cases h

/-- Operands that decode under op_id 0x80 name an XFER (R100). -/
theorem decodeXfer_ok {args : List Nat} {i : Instr} (h : decodeXfer args = .ok i) : ∃ m b, i = .xfer m b := by
  match args, h with
  | [m, p], h => exact ok_of_two_operands (x := asLevel m) (y := asByte p) h
  | [], h => cases h
  | [_], h => cases h
  | _ :: _ :: _ :: _, h => cases h

/-- Operands that decode under op_id 0x81 name a LINE_SET (R100). -/
theorem decodeLineSet_ok {args : List Nat} {i : Instr} (h : decodeLineSet args = .ok i) :
    ∃ l n, i = .lineSet l n := by
  match args, h with
  | [l, n], h => exact ok_of_two_operands (x := asLine l) (y := asLevel n) h
  | [], h => cases h
  | [_], h => cases h
  | _ :: _ :: _ :: _, h => cases h

/-- Settles O21: the closed form of a chip-select cycle, and the count of its events. -/
theorem xferSendsOneFrame : Obligations.XferSendsOneFrame := by
  intro s m b hlink es
  refine ⟨?_, length_xferEvents _ _ _ _ _ _ _, fun _ _ h => decodeXfer_ok h⟩
  rw [exec_xfer m b hlink, xfer_eq]
  rfl

/-- Settles O17: one closed form for every state, so a second LINK_INIT repeats the events. -/
theorem linkInitConfiguresThreeLines : Obligations.LinkInitConfiguresThreeLines := by
  intro s
  refine ⟨rfl, ?_⟩
  rw [exec_linkInit, linkInit_eq]
  rfl

/-- Settles O19: LINE_SET of each line, which the line's pseudo-operation shares. -/
theorem lineSetDrivesOneLatch : Obligations.LineSetDrivesOneLatch := by
  intro s n hlink c d b
  have hclk : exec (.lineSet .clk n) s = .next c := exec_lineSet .clk n hlink
  have hsda : exec (.lineSet .sda n) s = .next d := exec_lineSet .sda n hlink
  have hbl : exec (.lineSet .bl n) s = .next b := exec_lineSet .bl n hlink
  exact ⟨hclk, (exec_clk n s).trans hclk, hsda, (exec_sda n s).trans hsda, hbl, (exec_bl n s).trans hbl,
    fun _ _ h => decodeLineSet_ok h⟩

end Sys2Proof.Machine
end

section
/-! PROOF. PanelProgrammer (42_panel_programmer.md): PANEL_RESET and PROG_RUN. -/

namespace Sys2Proof.Machine

/-! What a trace makes of a chip register and of a line, composed along the trace. -/

theorem chipRegAfter_append (p : Params) (reg : Byte) (q : Word16) (es fs : List Event) :
    chipRegAfter p reg q (es ++ fs) = chipRegAfter p reg (chipRegAfter p reg q es) fs := List.foldl_append

theorem padAfter_append (l : Line) (q : Pad) (es fs : List Event) :
    padAfter l q (es ++ fs) = padAfter l (padAfter l q es) fs := List.foldl_append

theorem chipRegAfter_outWrite (p : Params) (q w : Word16) (r : Ack) :
    chipRegAfter p 0x02 q [outWrite p w r] = chipAfter q w r := by
  cases r with
  | ok => exact (if_pos ⟨rfl, rfl⟩).trans (joinBytes_halves w)
  | nack => rfl

/-- What EXP_SET sends, on either bus (R115, R116). -/
theorem chipRegAfter_busSet (p : Params) (init : Bool) (q w : Word16) (r : Ack) :
    chipRegAfter p 0x02 q (busSet p init w r) = if init then chipAfter q w r else q := by
  cases init with
  | true => exact chipRegAfter_outWrite p q w r
  | false => rfl

/-- The bus writes of a chip-select cycle, assert and de-assert, are all a chip register sees of it. -/
theorem chipRegAfter_xferEvents (p : Params) (init : Bool) (q w : Word16) (m : Level) (b : Byte) (r0 r1 : Ack) :
    chipRegAfter p 0x02 q (xferEvents p init w m b r0 r1) =
      if init then chipAfter (chipAfter q (insertBit w p.csBit false) r0) (insertBit w p.csBit true) r1 else q := by
  have hbits (q : Word16) : chipRegAfter p 0x02 q ((wireBits m b).flatMap (bitEvents p.tBitUs)) = q := rfl
  have hdelay (q : Word16) (n : Nat) : chipRegAfter p 0x02 q [.delayUs n] = q := rfl
  simp only [xferEvents, chipRegAfter_append, chipRegAfter_busSet, hbits, hdelay]
  cases init <;> rfl

theorem padAfter_clk_xferEvents (p : Params) (init : Bool) (w : Word16) (m : Level) (b : Byte) (r0 r1 : Ack) (q : Pad) :
    padAfter .clk q (xferEvents p init w m b r0 r1) = .driven false := by
  cases init <;> rfl

theorem padAfter_sda_xferEvents (p : Params) (init : Bool) (w : Word16) (m : Level) (b : Byte) (r0 r1 : Ack) (q : Pad) :
    padAfter .sda q (xferEvents p init w m b r0 r1) = .driven (b.getLsbD 0) := by
  cases init <;> rfl

theorem map_eraseAck_xferEvents (p : Params) (init : Bool) (w : Word16) (m : Level) (b : Byte) (r0 r1 : Ack) :
    (xferEvents p init w m b r0 r1).map eraseAck = xferEvents p init w m b .ok .ok := by
  cases init <;> rfl


/-! What a transmission does to the state, and that transmissions compose. -/

/-- From `s` to `t` events were sent that, with their answers forgotten, are `shape`. The chip and the two lines are what
the events make of them, the mirror is what acknowledged events would make of it, and nothing else but the environment's
answers to come has changed. -/
def Sends (shape : List Event) (s t : State) : Prop :=
  ∃ es a d, es.map eraseAck = shape ∧ t = { s with
    tr := s.tr ++ es, acks := a, draws := d,
    expMirror := chipRegAfter s.params 0x02 s.expMirror shape,
    expHwOut := chipRegAfter s.params 0x02 s.expHwOut es,
    clk := padAfter .clk s.clk es, sda := padAfter .sda s.sda es }

theorem Sends.refl (s : State) : Sends [] s s :=
  ⟨[], s.acks, s.draws, rfl, by simp [chipRegAfter, padAfter]⟩

theorem Sends.trans {sh sh' : List Event} {s t u : State} (h : Sends sh s t) (k : Sends sh' t u) :
    Sends (sh ++ sh') s u := by
  obtain ⟨es, a, d, rfl, rfl⟩ := h
  obtain ⟨fs, b, e, rfl, rfl⟩ := k
  exact ⟨es ++ fs, b, e, List.map_append, by simp [chipRegAfter_append, padAfter_append]⟩

theorem Sends.params {sh : List Event} {s t : State} (h : Sends sh s t) : t.params = s.params := by
  obtain ⟨es, a, d, -, rfl⟩ := h
  rfl

theorem Sends.expInitialized {sh : List Event} {s t : State} (h : Sends sh s t) :
    t.expInitialized = s.expInitialized := by
  obtain ⟨es, a, d, -, rfl⟩ := h
  rfl

/-- The programmer's own state goes along with a transmission. -/
theorem Sends.programmer {sh : List Event} {s t : State} (h : Sends sh s t) (i : Nat) (n : PpState) (p : Bool) :
    Sends sh { s with ppIndex := i, ppState := n, ppDone := p } { t with ppIndex := i, ppState := n, ppDone := p } := by
  obtain ⟨es, a, d, rfl, rfl⟩ := h
  exact ⟨es, a, d, rfl, rfl⟩

theorem Sends.ppIndex {sh : List Event} {s t : State} (h : Sends sh s t) : t.ppIndex = s.ppIndex := by
  obtain ⟨es, a, d, -, rfl⟩ := h
  rfl

theorem Sends.ppState {sh : List Event} {s t : State} (h : Sends sh s t) : t.ppState = s.ppState := by
  obtain ⟨es, a, d, -, rfl⟩ := h
  rfl

theorem sends_delayMs (n : Nat) (s : State) : Sends [.delayMs n] s (delayMs n s) :=
  ⟨[.delayMs n], s.acks, s.draws, rfl, rfl⟩

theorem sends_xfer (m : Level) (b : Byte) (s : State) :
    Sends (xferEvents s.params s.expInitialized s.expMirror m b .ok .ok) s (xfer m b s) := by
  refine ⟨xferEvents s.params s.expInitialized s.expMirror m b (ackAt s 0) (ackAt s 1), (afterBusAcks 2 s).acks,
    (afterBusAcks 2 s).draws, map_eraseAck_xferEvents _ _ _ _ _ _ _, ?_⟩
  rw [xfer_eq, chipRegAfter_xferEvents, chipRegAfter_xferEvents, padAfter_clk_xferEvents, padAfter_sda_xferEvents]
  cases h : s.expInitialized with
  | true => simp [afterBusAcks, h, afterAcks, mirrorAfterXfer, outAfterXfer, chipAfter]
  | false => simp [afterBusAcks, h, mirrorAfterXfer, outAfterXfer]

/-! PANEL_RESET. -/

/-- PANEL_RESET on an initialised bus: the release starts from the mirror the assert left, and takes the next answer. -/
theorem panelReset_initialised {s : State} (h : s.expInitialized = true) :
    panelReset s = { afterAcks 2 s with
      expMirror := insertBit s.expMirror s.params.rstBit true,
      expHwOut := chipAfter (chipAfter s.expHwOut (insertBit s.expMirror s.params.rstBit false) (ackAt s 0))
        (insertBit s.expMirror s.params.rstBit true) (ackAt s 1),
      tr := s.tr ++ resetEvents s.params true s.expMirror (ackAt s 0) (ackAt s 1) } := by
  have hack : ackAt (delayMs s.params.tRstHoldMs (expSet .rst false s)) 0 = ackAt s 1 := by
    rw [expSet_eq .rst false h]
    exact ackAt_afterAcks s 1 0
  have hinit : (delayMs s.params.tRstHoldMs (expSet .rst false s)).expInitialized = true := by
    rw [expSet_eq .rst false h]
    exact h
  have hp : (expSet .rst false s).params = s.params := (linkSide_expSet .rst false s).params
  simp only [panelReset, hp, expSet_eq .rst true hinit, hack]
  rw [expSet_eq .rst false h]
  simp [delayMs, emit, afterAcks, pinBit, insertBit_insertBit, resetEvents, busSet]
  omega

/-- PANEL_RESET on an uninitialised bus: both EXP_SETs do nothing. -/
theorem panelReset_uninitialised {s : State} (h : s.expInitialized = false) :
    panelReset s = { s with tr := s.tr ++ resetEvents s.params false s.expMirror (ackAt s 0) (ackAt s 1) } := by
  simp [panelReset, expSet, delayMs, emit, resetEvents, busSet, h]

/-- PANEL_RESET on either bus (R160). -/
theorem panelReset_eq (s : State) :
    panelReset s = { afterBusAcks 2 s with
      expMirror := if s.expInitialized then insertBit s.expMirror s.params.rstBit true else s.expMirror,
      expHwOut := if s.expInitialized then
          chipAfter (chipAfter s.expHwOut (insertBit s.expMirror s.params.rstBit false) (ackAt s 0))
            (insertBit s.expMirror s.params.rstBit true) (ackAt s 1)
        else s.expHwOut,
      tr := s.tr ++ resetEvents s.params s.expInitialized s.expMirror (ackAt s 0) (ackAt s 1) } := by
  cases h : s.expInitialized with
  | true => simp [panelReset_initialised h, afterBusAcks, h]
  | false => simp [panelReset_uninitialised h, afterBusAcks, h]

theorem chipRegAfter_resetEvents (p : Params) (init : Bool) (q w : Word16) (r0 r1 : Ack) :
    chipRegAfter p 0x02 q (resetEvents p init w r0 r1) =
      if init then chipAfter (chipAfter q (insertBit w p.rstBit false) r0) (insertBit w p.rstBit true) r1 else q := by
  have hdelay (q : Word16) (n : Nat) : chipRegAfter p 0x02 q [.delayMs n] = q := rfl
  simp only [resetEvents, chipRegAfter_append, chipRegAfter_busSet, hdelay]
  cases init <;> rfl

theorem map_eraseAck_resetEvents (p : Params) (init : Bool) (w : Word16) (r0 r1 : Ack) :
    (resetEvents p init w r0 r1).map eraseAck = resetEvents p init w .ok .ok := by
  cases init <;> rfl

theorem padAfter_resetEvents (l : Line) (q : Pad) (p : Params) (init : Bool) (w : Word16) (r0 r1 : Ack) :
    padAfter l q (resetEvents p init w r0 r1) = q := by
  cases init <;> rfl

theorem sends_panelReset (s : State) :
    Sends (resetEvents s.params s.expInitialized s.expMirror .ok .ok) s (panelReset s) := by
  refine ⟨resetEvents s.params s.expInitialized s.expMirror (ackAt s 0) (ackAt s 1), (afterBusAcks 2 s).acks,
    (afterBusAcks 2 s).draws, map_eraseAck_resetEvents _ _ _ _ _, ?_⟩
  rw [panelReset_eq, chipRegAfter_resetEvents, chipRegAfter_resetEvents, padAfter_resetEvents, padAfter_resetEvents]
  cases h : s.expInitialized with
  | true => simp [afterBusAcks, h, afterAcks, chipAfter]
  | false => simp [afterBusAcks, h]

theorem exec_panelReset {s : State} (h : s.linkConfigured = true) :
    exec .panelReset s = .next (returned .void (panelReset s)) :=
  whenLinked_linked panelReset h

/-- The constraints of R7 and R93, one by one. -/
theorem paramsWellFormed_iff {p : Params} : paramsWellFormed p = true ↔
    p.csBit ≠ p.rstBit ∧ Config.tRstHoldMinMs ≤ p.tRstHoldMs ∧ tableWellFormed p.table = true ∧
      milestonesWellFormed p.table p.milestones = true ∧
      configWellFormed (timingOf p) p.dataPins p.ctrlPins = true := by
  simp only [paramsWellFormed, Bool.and_eq_true, bne_iff_ne, decide_eq_true_eq, and_assoc]

/-- Settles O26: the closed form of the reset pulse. -/
theorem panelResetPulsesReset : Obligations.PanelResetPulsesReset := by
  intro s hlink lo hi
  refine ⟨rfl, fun hwf => ?_, ?_⟩
  · obtain ⟨-, hhold, -⟩ := paramsWellFormed_iff.1 hwf
    exact hhold
  · rw [exec_panelReset hlink, panelReset_eq]
    rfl


/-! Frames: a WRITE entry is a list of chip-select cycles, and the next one sees the same shape of mirror. -/

/-- The frames of a list, each in its own chip-select cycle. -/
def sendFrames (fs : List (Level × Byte)) (s : State) : State := fs.foldl (fun u f => xfer f.1 f.2 u) s

theorem sendAll_eq_sendFrames (ps : List Byte) (s : State) :
    sendAll ps s = sendFrames (ps.map fun b => (true, b)) s := by
  induction ps generalizing s with
  | nil => rfl
  | cons b ps ih => exact ih (sendData b s)

theorem replayEntry_write (op : PageOp) (c : Word16) (ps : List Byte) (s : State) :
    replayEntry (.write op c ps) s = sendFrames (entryFrames (.write op c ps)) s :=
  sendAll_eq_sendFrames ps (sendCommand c s)

/-- Both bus writes of a cycle set the chip-select bit, so what it was before does not show. -/
theorem xferEvents_insertBit_csBit (p : Params) (init : Bool) (w : Word16) (v : Level) (m : Level) (b : Byte)
    (r0 r1 : Ack) : xferEvents p init (insertBit w p.csBit v) m b r0 r1 = xferEvents p init w m b r0 r1 := by
  simp only [xferEvents, insertBit_insertBit]

theorem xfer_expMirror (m : Level) (b : Byte) (s : State) : (xfer m b s).expMirror = mirrorAfterXfer s := by
  rw [xfer_eq]

/-- After a chip-select cycle further frames have the shape they had before it. -/
theorem framesShape_xfer (m : Level) (b : Byte) (s : State) (fs : List (Level × Byte)) :
    framesShape (xfer m b s).params (xfer m b s).expInitialized (xfer m b s).expMirror fs =
      framesShape s.params s.expInitialized s.expMirror fs := by
  rw [(sends_xfer m b s).params, (sends_xfer m b s).expInitialized, xfer_expMirror]
  cases h : s.expInitialized <;> simp [framesShape, mirrorAfterXfer, h, xferEvents_insertBit_csBit]

theorem framesShape_sendFrames (fs gs : List (Level × Byte)) (s : State) :
    framesShape (sendFrames fs s).params (sendFrames fs s).expInitialized (sendFrames fs s).expMirror gs =
      framesShape s.params s.expInitialized s.expMirror gs := by
  induction fs generalizing s with
  | nil => rfl
  | cons f fs ih => exact (ih (xfer f.1 f.2 s)).trans (framesShape_xfer f.1 f.2 s gs)

theorem sends_sendFrames (fs : List (Level × Byte)) (s : State) :
    Sends (framesShape s.params s.expInitialized s.expMirror fs) s (sendFrames fs s) := by
  induction fs generalizing s with
  | nil => exact .refl s
  | cons f fs ih =>
    have hrest := ih (xfer f.1 f.2 s)
    rw [framesShape_xfer] at hrest
    exact (sends_xfer f.1 f.2 s).trans hrest

/-! The replay of the table. -/

theorem sends_replayEntry (e : RegisterOp) (s : State) :
    Sends (entryShape s.params s.expInitialized s.expMirror e) s (replayEntry e s) := by
  cases e with
  | write op c ps =>
    rw [replayEntry_write]
    exact sends_sendFrames _ s
  | delay ms => exact sends_delayMs ms s

/-- After the replay of an entry further entries have the shape they had before it. -/
theorem entryShape_replayEntry (e : RegisterOp) (s : State) :
    entryShape (replayEntry e s).params (replayEntry e s).expInitialized (replayEntry e s).expMirror =
      entryShape s.params s.expInitialized s.expMirror := by
  cases e with
  | delay ms => rfl
  | write op c ps =>
    funext e'
    cases e' with
    | delay ms => rfl
    | write op' c' ps' =>
      rw [replayEntry_write]
      exact framesShape_sendFrames _ _ s

/-- The loop of PROG_RUN: every entry once, in order, with the index going up by one for each; `pp_done` plays no part
in it (R170). -/
theorem sends_replayTable (es : List RegisterOp) (s : State) (p : Bool) :
    Sends (es.flatMap (entryShape s.params s.expInitialized s.expMirror))
      { s with ppIndex := s.ppIndex + es.length, ppState := (replayTable es s).ppState, ppDone := p }
      { replayTable es s with ppDone := p } := by
  induction es generalizing s with
  | nil => exact .refl { s with ppDone := p }
  | cons e es ih =>
    have he := sends_replayEntry e s
    have hshape : entryShape (advanceIndex (replayEntry e s)).params (advanceIndex (replayEntry e s)).expInitialized
        (advanceIndex (replayEntry e s)).expMirror = entryShape s.params s.expInitialized s.expMirror :=
      entryShape_replayEntry e s
    have hindex : (advanceIndex (replayEntry e s)).ppIndex + es.length = s.ppIndex + (e :: es).length := by
      rw [advanceIndex_ppIndex, he.ppIndex, List.length_cons]
      omega
    have hrest := ih (advanceIndex (replayEntry e s))
    rw [hshape, hindex] at hrest
    exact (he.programmer _ _ p).trans hrest

/-! The milestones: the eighth is the last, and gives the state its final name. -/

theorem milestoneState_append {ms : List Nat} {ns : List PpState} (h : ms.length = ns.length) (idx m : Nat)
    (n cur : PpState) :
    milestoneState idx (ms ++ [m]) (ns ++ [n]) cur = if idx = m then n else milestoneState idx ms ns cur := by
  induction ms generalizing ns cur with
  | nil =>
    cases List.eq_nil_of_length_eq_zero h.symm
    rfl
  | cons k ms ih =>
    cases ns with
    | nil => cases h
    | cons q ns => exact ih (Nat.succ.inj h) _

theorem milestoneState_of_notMem {idx : Nat} {ms : List Nat} (h : idx ∉ ms) (ns : List PpState) (cur : PpState) :
    milestoneState idx ms ns cur = cur := by
  induction ms generalizing ns cur with
  | nil => rfl
  | cons k ms ih =>
    cases ns with
    | nil => rfl
    | cons q ns =>
      rw [List.mem_cons, not_or] at h
      obtain ⟨hne, hrest⟩ := h
      rw [milestoneState, if_neg hne, ih hrest]

/-- The eight milestones of a well-formed table: the last is the greatest, and its entry is a WRITE of the table. -/
theorem milestones_of_wellFormed {t : List RegisterOp} {ms : List Nat} (h : milestonesWellFormed t ms = true) :
    ∃ ks m e, ms = ks ++ [m] ∧ ks.length = 7 ∧ (∀ k ∈ ks, k < m) ∧ t[m]? = some e ∧ entryIsWrite e = true := by
  simp only [milestonesWellFormed, Bool.and_eq_true, beq_iff_eq, decide_eq_true_eq, List.all_eq_true] at h
  obtain ⟨⟨hlen, hlt⟩, hwrite⟩ := h
  obtain rfl | ⟨ks, m, rfl⟩ := List.eq_nil_or_concat ms
  · cases hlen
  · rw [List.concat_eq_append] at *
    have hm := hwrite m (by simp)
    cases he : t[m]? with
    | none => simp [he] at hm
    | some e =>
      refine ⟨ks, m, e, rfl, by simpa using hlen, fun k hk => ?_, he, by simpa [he] using hm⟩
      exact (List.pairwise_append.1 hlt).2.2 k hk m (by simp)

/-- One turn of PROG_RUN's loop at or after the eighth milestone leaves the state displaying (R172). -/
theorem milestoneState_displaying {ks : List Nat} {m idx : Nat} {cur : PpState} (hlen : ks.length = 7)
    (hlt : ∀ k ∈ ks, k < m) (hcur : m < idx → cur = .displaying) (hidx : m ≤ idx) :
    milestoneState idx (ks ++ [m]) milestoneNames cur = .displaying := by
  have hsplit : milestoneNames = milestoneNames.dropLast ++ [.displaying] := rfl
  rw [hsplit, milestoneState_append (by rw [hlen]; rfl)]
  split
  · rfl
  · have hnot : idx ∉ ks := fun hmem => absurd (hlt idx hmem) (by omega)
    rw [milestoneState_of_notMem hnot]
    exact hcur (by omega)

/-- The replay ends displaying once its index has passed the eighth milestone. -/
theorem replayTable_ppState {ks : List Nat} {m : Nat} (hlen : ks.length = 7) (hlt : ∀ k ∈ ks, k < m)
    (es : List RegisterOp) {s : State} (hms : s.params.milestones = ks ++ [m])
    (hcur : m < s.ppIndex → s.ppState = .displaying) (hend : m < s.ppIndex + es.length) :
    (replayTable es s).ppState = .displaying := by
  induction es generalizing s with
  | nil => exact hcur hend
  | cons e es ih =>
    have he := sends_replayEntry e s
    refine ih (s := advanceIndex (replayEntry e s)) ?_ (fun hidx => ?_) ?_
    · rw [advanceIndex_params, he.params, hms]
    · rw [advanceIndex_ppIndex, he.ppIndex] at hidx
      rw [advanceIndex_ppState, he.params, he.ppIndex, he.ppState, hms]
      exact milestoneState_displaying hlen hlt hcur (by omega)
    · rw [advanceIndex_ppIndex, he.ppIndex]
      rw [List.length_cons] at hend
      omega

/-! PROG_RUN. -/

/-- Without the bus the mirror does not show in what an entry sends (R116). -/
theorem entryShape_uninitialised (p : Params) (w w' : Word16) : entryShape p false w = entryShape p false w' := by
  funext e
  cases e <;> rfl

theorem entryShape_panelReset (s : State) :
    entryShape s.params s.expInitialized (panelReset s).expMirror =
      entryShape s.params s.expInitialized (insertBit s.expMirror s.params.rstBit true) := by
  cases h : s.expInitialized with
  | true => rw [panelReset_initialised h]
  | false => exact entryShape_uninitialised _ _ _

/-- The state PROG_RUN starts the reset pulse in (R170). -/
def progRunStart (s : State) : State := { s with ppDone := false, ppIndex := 0, ppState := .reset }

/-- PROG_RUN: the reset pulse, then the table, from the first index to the end of the table (R170). -/
theorem sends_progRun {s : State} (h : milestonesWellFormed s.params.table s.params.milestones = true) :
    Sends (progRunShape s.params s.expInitialized s.expMirror)
      { s with ppIndex := s.params.table.length, ppState := .displaying, ppDone := true } (progRun s) := by
  have hreset := sends_panelReset (progRunStart s)
  have htable := sends_replayTable s.params.table (panelReset (progRunStart s)) true
  have hshape : entryShape (panelReset (progRunStart s)).params (panelReset (progRunStart s)).expInitialized
        (panelReset (progRunStart s)).expMirror =
      entryShape s.params s.expInitialized (insertBit s.expMirror s.params.rstBit true) := by
    rw [hreset.params, hreset.expInitialized]
    exact entryShape_panelReset (progRunStart s)
  have hindex : (panelReset (progRunStart s)).ppIndex + s.params.table.length = s.params.table.length := by
    rw [hreset.ppIndex]
    exact Nat.zero_add _
  have hstate : (replayTable s.params.table (panelReset (progRunStart s))).ppState = .displaying := by
    obtain ⟨ks, m, e, hms, hlen, hlt, he, -⟩ := milestones_of_wellFormed h
    have hm : m < s.params.table.length := (List.getElem?_eq_some_iff.1 he).1
    refine replayTable_ppState hlen hlt _ ?_ (fun hidx => ?_) (by rwa [hindex])
    · rw [hreset.params]
      exact hms
    · rw [hreset.ppIndex] at hidx
      exact absurd hidx (Nat.not_lt_zero m)
  have hrun : progRun s = { replayTable s.params.table (panelReset (progRunStart s)) with ppDone := true } := by
    rw [progRun, ← progRunStart, hreset.params]
    rfl
  rw [hshape, hindex, hstate, ← hrun] at htable
  exact (hreset.programmer _ _ true).trans htable

/-! Where the mirror and the clock line stand at the end of it. -/

/-- A fold over pieces of which some set its value to `c` and the others keep it. -/
theorem foldl_flatMap_of_set {α β γ : Type} {f : α → β → α} {g : γ → List β} {sets : γ → Bool} {c : α}
    (h : ∀ x q, (g x).foldl f q = if sets x then c else q) (xs : List γ) (q : α) :
    (xs.flatMap g).foldl f q = if xs.any sets then c else q := by
  induction xs generalizing q with
  | nil => rfl
  | cons x xs ih =>
    rw [List.flatMap_cons, List.foldl_append, ih, h, List.any_cons]
    cases sets x <;> simp

theorem chipRegAfter_entryShape (p : Params) (init : Bool) (w : Word16) (e : RegisterOp) (q : Word16) :
    chipRegAfter p 0x02 q (entryShape p init w e) =
      if entryIsWrite e && init then insertBit w p.csBit true else q := by
  cases e with
  | delay ms => rfl
  | write op c ps =>
    have hframe (f : Level × Byte) (q : Word16) : chipRegAfter p 0x02 q (xferEvents p init w f.1 f.2 .ok .ok) =
        if init then insertBit w p.csBit true else q := chipRegAfter_xferEvents p init q w f.1 f.2 .ok .ok
    refine (foldl_flatMap_of_set (sets := fun _ => init) hframe _ q).trans ?_
    cases init <;> simp [entryFrames, entryIsWrite]

theorem padAfter_clk_entryShape (p : Params) (init : Bool) (w : Word16) (e : RegisterOp) (q : Pad) :
    padAfter .clk q (entryShape p init w e) = if entryIsWrite e then .driven false else q := by
  cases e with
  | delay ms => rfl
  | write op c ps =>
    have hframe (f : Level × Byte) (q : Pad) := padAfter_clk_xferEvents p init w f.1 f.2 .ok .ok q
    exact foldl_flatMap_of_set (sets := fun _ => true) hframe _ q

theorem chipRegAfter_progRunShape {p : Params} (h : p.table.any entryIsWrite = true) (init : Bool) (w : Word16) :
    chipRegAfter p 0x02 w (progRunShape p init w) =
      if init then insertBit (insertBit w p.rstBit true) p.csBit true else w := by
  have htable (q : Word16) := foldl_flatMap_of_set
    (chipRegAfter_entryShape p init (insertBit w p.rstBit true)) p.table q
  rw [progRunShape, chipRegAfter_append, chipRegAfter_resetEvents]
  refine (htable _).trans ?_
  cases init <;> simp [h]

theorem padAfter_clk_progRunShape {p : Params} (h : p.table.any entryIsWrite = true) (init : Bool) (w : Word16)
    (q : Pad) : padAfter .clk q (progRunShape p init w) = .driven false := by
  rw [progRunShape, padAfter_append]
  refine (foldl_flatMap_of_set (padAfter_clk_entryShape p init (insertBit w p.rstBit true)) p.table _).trans ?_
  rw [h, if_pos rfl]

/-- Answers do not show on a line. -/
theorem padAfter_map_eraseAck (l : Line) (q : Pad) (es : List Event) :
    padAfter l q (es.map eraseAck) = padAfter l q es := by
  induction es generalizing q with
  | nil => rfl
  | cons e es ih => cases e <;> exact ih _

/-- PROG_RUN in full, but for the answers it got (R170). -/
theorem progRun_eq {s : State} (h : milestonesWellFormed s.params.table s.params.milestones = true) :
    ∃ es a d, es.map eraseAck = progRunShape s.params s.expInitialized s.expMirror ∧
      progRun s = { s with
        tr := s.tr ++ es, acks := a, draws := d,
        ppIndex := s.params.table.length, ppState := .displaying, ppDone := true,
        expMirror := if s.expInitialized then
            insertBit (insertBit s.expMirror s.params.rstBit true) s.params.csBit true else s.expMirror,
        expHwOut := chipRegAfter s.params 0x02 s.expHwOut es,
        clk := .driven false, sda := padAfter .sda s.sda es } := by
  have hwrite : s.params.table.any entryIsWrite = true := by
    obtain ⟨-, m, e, -, -, -, he, hw⟩ := milestones_of_wellFormed h
    exact List.any_eq_true.2 ⟨e, List.mem_of_getElem? he, hw⟩
  obtain ⟨es, a, d, hes, hrun⟩ := sends_progRun h
  refine ⟨es, a, d, hes, ?_⟩
  rw [hrun, chipRegAfter_progRunShape hwrite, ← padAfter_map_eraseAck .clk, hes, padAfter_clk_progRunShape hwrite]

/-! The delays among the events (R174). -/

theorem countP_isDelayMs_xferEvents (p : Params) (init : Bool) (w : Word16) (m : Level) (b : Byte) (r0 r1 : Ack) :
    (xferEvents p init w m b r0 r1).countP isDelayMs = 0 := by
  cases init <;> rfl

theorem countP_isDelayMs_resetEvents (p : Params) (init : Bool) (w : Word16) (r0 r1 : Ack) :
    (resetEvents p init w r0 r1).countP isDelayMs = 1 := by
  cases init <;> rfl

theorem countP_isDelayMs_entryShape (p : Params) (init : Bool) (w : Word16) (e : RegisterOp) :
    (entryShape p init w e).countP isDelayMs = if !entryIsWrite e then 1 else 0 := by
  cases e with
  | delay ms => rfl
  | write op c ps =>
    rw [entryShape, framesShape, List.countP_flatMap]
    simp [Function.comp_def, countP_isDelayMs_xferEvents, entryIsWrite]

/-- A replay delays once for each DELAY entry. -/
theorem countP_isDelayMs_flatMap (p : Params) (init : Bool) (w : Word16) (t : List RegisterOp) :
    (t.flatMap (entryShape p init w)).countP isDelayMs = t.countP fun e => !entryIsWrite e := by
  induction t with
  | nil => rfl
  | cons e t ih =>
    rw [List.flatMap_cons, List.countP_append, countP_isDelayMs_entryShape, ih, List.countP_cons, Nat.add_comm]

/-- What `delaysInPlace` says of the table: two delays before the sleep-out entry, and one at its end (log 22). -/
theorem delaysInPlace_places {t : List RegisterOp} {ms : List Nat} (h : delaysInPlace t ms = true) :
    ∃ m e, ms[6]? = some m ∧ (t.take m).countP (fun e => !entryIsWrite e) = 2 ∧ t.getLast? = some e ∧
      entryIsWrite e = false := by
  unfold delaysInPlace at h
  split at h
  · rename_i m k hm hk
    simp only [Bool.and_eq_true, beq_iff_eq, Option.any_eq_true, Bool.not_eq_true'] at h
    obtain ⟨⟨-, htwo⟩, e, hlast, he⟩ := h
    rw [List.getLast?_drop] at hlast
    split at hlast
    · cases hlast
    · exact ⟨m, e, hm, htwo, hlast, he⟩
  · cases h

/-- A delay of a well-formed table settles 100 to 150 ms (R93). -/
theorem delay_of_tableWellFormed {t : List RegisterOp} (h : tableWellFormed t = true) {e : RegisterOp} (he : e ∈ t)
    (hd : entryIsWrite e = false) : ∃ ms, e = .delay ms ∧ 100 ≤ ms ∧ ms ≤ 150 := by
  simp only [tableWellFormed, Bool.and_eq_true, List.all_eq_true] at h
  obtain ⟨⟨-, hall⟩, -⟩ := h
  cases e with
  | write op c ps => cases hd
  | delay ms =>
    have hrange := hall _ he
    simp only [entryOk, settleMsOk, Bool.and_eq_true, decide_eq_true_eq] at hrange
    exact ⟨ms, rfl, hrange⟩

/-- A table that ends with a delay makes PROG_RUN end with it. -/
theorem getLast?_progRunShape {p : Params} {ms : Nat} (h : p.table.getLast? = some (.delay ms)) (init : Bool)
    (w : Word16) : (progRunShape p init w).getLast? = some (.delayMs ms) := by
  obtain ⟨t, ht⟩ := List.getLast?_eq_some_iff.1 h
  rw [progRunShape, ht, List.flatMap_append, ← List.append_assoc]
  exact List.getLast?_concat

theorem getLast?_of_map_eraseAck {es : List Event} {ms : Nat}
    (h : (es.map eraseAck).getLast? = some (.delayMs ms)) : es.getLast? = some (.delayMs ms) := by
  rw [List.getLast?_map, Option.map_eq_some_iff] at h
  obtain ⟨e, hlast, he⟩ := h
  rw [hlast]
  cases e <;> cases he
  rfl

theorem exec_progRun {s : State} (h : s.linkConfigured = true) :
    exec .progRun s = .next (returned .void (progRun s)) :=
  whenLinked_linked progRun h

/-- Settles O27: the closed form of PROG_RUN, from an induction over the table; the delays by counting events. -/
theorem progRunReplaysTheWholeTable : Obligations.ProgRunReplaysTheWholeTable := by
  intro s hlink hwf
  obtain ⟨-, -, htable, hms, -⟩ := paramsWellFormed_iff.1 hwf
  obtain ⟨es, a, d, hes, hrun⟩ := progRun_eq hms
  have hnew : newEvents s (returned .void (progRun s)) = es := by rw [hrun]; exact List.drop_left
  refine ⟨rfl, returned .void (progRun s), exec_progRun hlink, ?_, ?_, ?_, fun hplaces => ?_⟩
  · rw [hrun]
    exact List.prefix_append _ _
  · rw [hnew, hes]
  · rw [hnew, hrun]
    rfl
  · rw [hnew, hes]
    obtain ⟨m, e, hm, htwo, hlast, he⟩ := delaysInPlace_places hplaces
    obtain ⟨ms, rfl, hlo, hhi⟩ := delay_of_tableWellFormed htable (List.mem_of_getLast? hlast) he
    refine ⟨⟨m, _, hm, htwo, rfl, ?_, ?_⟩, ms, ?_, hlo, hhi⟩
    · exact (List.prefix_append_right_inj _).2 ((List.take_prefix m _).flatMap _)
    · rw [List.countP_append, countP_isDelayMs_resetEvents, countP_isDelayMs_flatMap, htwo]
    · exact getLast?_of_map_eraseAck (by rw [hes, getLast?_progRunShape hlast])

end Sys2Proof.Machine
end

section
/-! PROOF. TimingStreamer (43_timing_streamer.md): TS_CONFIGURE, TS_NOTIFY and the mapping of a pixel to the pins. -/

namespace Sys2Proof.Machine

/-! A configuration, and the twenty pins it names. -/

/-- The conditions of R181, one by one. -/
theorem configWellFormed_iff {t : Timing} {d : DataPins} {c : CtrlPins} : configWellFormed t d c = true ↔
    t.hres = 480 ∧ t.vres = 480 ∧ 1 ≤ t.hpw ∧ 1 ≤ t.vpw ∧ 1 ≤ t.pclkHz ∧ t.pclkInverted = false ∧
      (allPins d c).Nodup := by
  simp only [configWellFormed, Bool.and_eq_true, beq_iff_eq, decide_eq_true_eq, Bool.not_eq_true', and_assoc,
    Config.hres, Config.vres]

/-- No pin of a well-formed configuration is named twice (R181). -/
theorem pins_of_configWellFormed {t : Timing} {d : DataPins} {c : CtrlPins} (h : configWellFormed t d c = true) :
    d.toList.Nodup ∧ [c.hsync, c.vsync, c.de, c.pclk].Nodup ∧
      ∀ p ∈ d.toList, ∀ q ∈ [c.hsync, c.vsync, c.de, c.pclk], p ≠ q := by
  obtain ⟨-, -, -, -, -, -, hpins⟩ := configWellFormed_iff.1 h
  exact List.nodup_append.1 hpins

/-- A pin named once among the data pins carries the bit of its place. -/
theorem dataPinSignal_getElem (d : Pixel) {qs : List Byte} (h : qs.Nodup) (n i : Nat) (hi : i < qs.length) :
    dataPinSignal qs[i] d qs n = .level (d.getLsbD (n + i)) := by
  induction qs generalizing n i with
  | nil => cases hi
  | cons q qs ih =>
    obtain ⟨hq, hqs⟩ := List.nodup_cons.1 h
    cases i with
    | zero => exact if_pos rfl
    | succ i =>
      have hi' : i < qs.length := Nat.lt_of_succ_lt_succ hi
      have hne : q ≠ qs[i] := fun e => hq (e ▸ List.getElem_mem hi')
      rw [List.getElem_cons_succ, dataPinSignal, if_neg hne, ih hqs (n + 1) i hi']
      congr 2
      omega

/-- A pin that is none of the control pins is looked up among the data pins. -/
theorem pinSignal_of_notMem {c : TsCfg} {pin : Byte}
    (h : ∀ q ∈ [c.ctrlPins.hsync, c.ctrlPins.vsync, c.ctrlPins.de, c.ctrlPins.pclk], pin ≠ q) (hs vs de : Level)
    (d : Pixel) : pinSignal c hs vs de d pin = dataPinSignal pin d c.dataPins.toList 0 := by
  simp only [List.forall_mem_cons] at h
  obtain ⟨hhsync, hvsync, hde, hpclk, -⟩ := h
  rw [pinSignal, if_neg hhsync, if_neg hvsync, if_neg hde, if_neg hpclk]

/-- The control pins, where they are four different pins, carry the control lines. -/
theorem pinSignal_ctrlPins {c : TsCfg}
    (h : [c.ctrlPins.hsync, c.ctrlPins.vsync, c.ctrlPins.de, c.ctrlPins.pclk].Nodup) (hs vs de : Level) (d : Pixel) :
    pinSignal c hs vs de d c.ctrlPins.hsync = .level hs ∧ pinSignal c hs vs de d c.ctrlPins.vsync = .level vs ∧
      pinSignal c hs vs de d c.ctrlPins.de = .level de ∧ pinSignal c hs vs de d c.ctrlPins.pclk = .clockCycle := by
  simp only [List.nodup_cons, List.mem_cons, not_or] at h
  obtain ⟨⟨hhv, hhd, hhp, -⟩, ⟨hvd, hvp, -⟩, ⟨hdp, -⟩, -⟩ := h
  refine ⟨?_, ?_, ?_, ?_⟩
  · rw [pinSignal, if_pos rfl]
  · rw [pinSignal, if_neg (Ne.symm hhv), if_pos rfl]
  · rw [pinSignal, if_neg (Ne.symm hhd), if_neg (Ne.symm hvd), if_pos rfl]
  · rw [pinSignal, if_neg (Ne.symm hhp), if_neg (Ne.symm hvp), if_neg (Ne.symm hdp), if_pos rfl]

/-! TS_CONFIGURE: its refusals, and its end by the answer to the probe (R180). -/

theorem exec_tsConfigure_configured {s : State} (t : Timing) (d : DataPins) (c : CtrlPins)
    (h : s.tsState ≠ .unconfigured) : exec (.tsConfigure t d c) s = .refused .alreadyConfigured := by
  change execTsConfigure t d c s = _
  rw [execTsConfigure, tsConfigureRefusal, if_pos h]

theorem exec_tsConfigure_badConfig {s : State} {t : Timing} {d : DataPins} {c : CtrlPins}
    (h : s.tsState = .unconfigured) (hbad : configWellFormed t d c = false) :
    exec (.tsConfigure t d c) s = .refused .badConfig := by
  change execTsConfigure t d c s = _
  rw [execTsConfigure, tsConfigureRefusal, if_neg (not_not.2 h), hbad]
  rfl

theorem exec_tsConfigure_accepted {s : State} {t : Timing} {d : DataPins} {c : CtrlPins}
    (h : s.tsState = .unconfigured) (hok : configWellFormed t d c = true) :
    exec (.tsConfigure t d c) s = .next (finish (tsConfigure t d c s)) := by
  change execTsConfigure t d c s = _
  rw [execTsConfigure, tsConfigureRefusal, if_neg (not_not.2 h), hok]
  rfl

/-- No pixel interface: nothing is latched. -/
theorem tsConfigure_absent {s : State} (t : Timing) (d : DataPins) (c : CtrlPins) (h : pixIfNext s = .absent) :
    tsConfigure t d c s =
      (emit (.pixIfProbe .absent) (afterPixIf s), some (.transportAbsent .tsConfigure)) := by
  simp only [tsConfigure, askPixIf_eq, h]

theorem tsConfigure_present {s : State} (t : Timing) (d : DataPins) (c : CtrlPins) (h : pixIfNext s = .present) :
    tsConfigure t d c s =
      ({ emit (.pixIfProbe .present) (afterPixIf s) with tsCfg := ⟨t, d, c⟩, tsState := .configured }, none) := by
  simp only [tsConfigure, askPixIf_eq, h]

/-- What a decoder answers is what its last part answers for some value of the part before. -/
theorem exists_ok_of_bind_ok {ε α β : Type} {x : Except ε α} {f : α → Except ε β} {b : β}
    (h : x >>= f = .ok b) : ∃ a, f a = .ok b := by
  cases x with
  | error e => cases h
  | ok a => exact ⟨a, h⟩

/-- Operands that decode under op_id 0x30 name a TS_CONFIGURE (R100). -/
theorem decodeTsConfigure_ok {args : List Nat} {i : Instr} (h : decodeTsConfigure args = .ok i) :
    ∃ t d c, i = .tsConfigure t d c := by
  unfold decodeTsConfigure at h
  split at h
  · obtain ⟨hsyncActive, h⟩ := exists_ok_of_bind_ok h
    obtain ⟨vsyncActive, h⟩ := exists_ok_of_bind_ok h
    obtain ⟨deActive, h⟩ := exists_ok_of_bind_ok h
    obtain ⟨pclkInverted, h⟩ := exists_ok_of_bind_ok h
    obtain ⟨dataPins, h⟩ := exists_ok_of_bind_ok h
    obtain ⟨ctrlPins, h⟩ := exists_ok_of_bind_ok h
    exact ⟨_, dataPins, ctrlPins, (Except.ok.inj h).symm⟩
  · cases h

/-! TS_NOTIFY: its refusals, and what it does in either mode (R205). -/

theorem tsNotifyRefusal_of_not_running {s : State} (r : Rect) (h : s.tsState ≠ .running) :
    tsNotifyRefusal r s = some .notRunning := if_pos h

theorem tsNotifyRefusal_of_not_rectValid {s : State} {r : Rect} (h : s.tsState = .running)
    (hr : rectValid r = false) : tsNotifyRefusal r s = some .badRect := by
  rw [tsNotifyRefusal, if_neg (not_not.2 h), hr]
  rfl

theorem tsNotifyRefusal_single {s : State} {r : Rect} (h : s.tsState = .running) (hr : rectValid r = true)
    (hm : s.params.streamMode = .single) : tsNotifyRefusal r s = none := by
  rw [tsNotifyRefusal, if_neg (not_not.2 h), hr, hm]
  rfl

/-- DOUBLE mode refuses only a flip that is already pending. -/
theorem tsNotifyRefusal_double {s : State} {r : Rect} (h : s.tsState = .running) (hr : rectValid r = true)
    (hm : s.params.streamMode = .double) :
    tsNotifyRefusal r s = if s.flipPending then some .flipAlreadyPending else none := by
  rw [tsNotifyRefusal, if_neg (not_not.2 h), hr, hm]
  rfl

theorem exec_tsNotify_refused {s : State} {r : Rect} {why : Refusal} (h : tsNotifyRefusal r s = some why) :
    exec (.tsNotify r) s = .refused why := by
  change execTsNotify r s = _
  rw [execTsNotify, h]

theorem exec_tsNotify_accepted {s : State} {r : Rect} (h : tsNotifyRefusal r s = none) :
    exec (.tsNotify r) s = .next (returned .void (tsNotify r s)) := by
  change execTsNotify r s = _
  rw [execTsNotify, h]

theorem tsNotify_single {s : State} (r : Rect) (h : s.params.streamMode = .single) : tsNotify r s = s := by
  simp only [tsNotify, h]

theorem tsNotify_double {s : State} (r : Rect) (h : s.params.streamMode = .double) :
    tsNotify r s = { s with flipRect := r, flipPending := true } := by
  simp only [tsNotify, h]

/-- Operands that decode under op_id 0x32 name a TS_NOTIFY (R100). -/
theorem decodeTsNotify_ok {args : List Nat} {i : Instr} (h : decodeTsNotify args = .ok i) :
    ∃ r, i = .tsNotify r := by
  unfold decodeTsNotify at h
  split at h
  · exact ⟨_, (Except.ok.inj h).symm⟩
  · cases h

/-- Settles O39: the twenty pins differ, so a data pin is found at its own place and a control pin before any other. -/
theorem pinsCarryThePixel : Obligations.PinsCarryThePixel := by
  intro c hs vs de d hwf
  obtain ⟨hdata, hctrl, hdisjoint⟩ := pins_of_configWellFormed hwf
  refine ⟨fun i => ?_, pinSignal_ctrlPins hctrl hs vs de d⟩
  have hlen : i.val < c.dataPins.toList.length := by simp
  have hpin : c.dataPins[i] = c.dataPins.toList[i.val] := by simp
  rw [hpin, pinSignal_of_notMem (hdisjoint _ (List.getElem_mem hlen)), dataPinSignal_getElem d hdata 0 i.val hlen,
    Nat.zero_add]

/-- Settles O29: one clause for each place TS_CONFIGURE can end at. -/
theorem tsConfigureLatchesOnce : Obligations.TsConfigureLatchesOnce := by
  intro s t d c
  refine ⟨fun _ _ h => decodeTsConfigure_ok h, exec_tsConfigure_configured t d c, exec_tsConfigure_badConfig,
    fun hst hok hpix => ?_, fun hst hok hpix => ?_⟩
  · rw [exec_tsConfigure_accepted hst hok, tsConfigure_absent t d c hpix]
    rfl
  · rw [exec_tsConfigure_accepted hst hok, tsConfigure_present t d c hpix]
    rfl

/-- Settles O30: R181's conditions, and the refusal of TS_CONFIGURE where they fail. -/
theorem configWellFormedIsRule181 : Obligations.ConfigWellFormedIsRule181 := by
  intro t d c ok
  have hiff : configWellFormed t d c = true ↔ ok := configWellFormed_iff
  exact ⟨hiff, fun s hst hnot => exec_tsConfigure_badConfig hst (Bool.eq_false_iff.2 fun h => hnot (hiff.1 h))⟩

/-- Settles O40: the three refusals in their order, then either mode. -/
theorem tsNotifyRequestsTheFlip : Obligations.TsNotifyRequestsTheFlip := by
  intro s r
  refine ⟨fun _ _ h => decodeTsNotify_ok h, fun hst => exec_tsNotify_refused (tsNotifyRefusal_of_not_running r hst),
    fun hst hbad => ?_, fun hst hrect => ?_⟩
  · have hr : rectValid r = false := Bool.eq_false_iff.2 fun h => hbad ((rectValid_iff r).1 h)
    exact exec_tsNotify_refused (tsNotifyRefusal_of_not_rectValid hst hr)
  · have hr : rectValid r = true := (rectValid_iff r).2 hrect
    refine ⟨fun hmode => ?_, fun hmode hflip => ?_, fun hmode hflip => ?_⟩
    · rw [exec_tsNotify_accepted (tsNotifyRefusal_single hst hr hmode), tsNotify_single r hmode]
      rfl
    · exact exec_tsNotify_refused ((tsNotifyRefusal_double hst hr hmode).trans (if_pos hflip))
    · have hnone : tsNotifyRefusal r s = none :=
        (tsNotifyRefusal_double hst hr hmode).trans (if_neg (Bool.eq_false_iff.1 hflip))
      rw [exec_tsNotify_accepted hnone, tsNotify_double r hmode]
      rfl

end Sys2Proof.Machine
end

section
/-! PROOF. PanelBringup (44_orchestrator.md): BACKLIGHT_ON, and the refusal of a second BRING_UP. -/

namespace Sys2Proof.Machine

/-- An operation that needs `link_configured`, where it is not set (R131). -/
theorem whenLinked_unlinked (f : State → State) {s : State} (h : s.linkConfigured = false) :
    whenLinked f s = .refused .linkNotConfigured :=
  if_neg (Bool.eq_false_iff.1 h)

/-- R226's definition of BACKLIGHT_ON: it is a LINE_SET. -/
theorem exec_backlightOn (s : State) : exec .backlightOn s = exec (.lineSet .bl Config.blOn) s := rfl

/-- BRING_UP runs once: it is refused after a success, after a failure, and while its return is pending (R223). -/
theorem exec_bringUp_refused {s : State}
    (h : s.panelReady = true ∨ s.bringUpReturning = true ∨ s.bringupError.isSome = true) :
    exec .bringUp s = .refused .bringUpOnce := by
  change execBringUp s = _
  rw [execBringUp, if_pos]
  simpa only [Bool.or_eq_true, or_assoc] using h

/-- Settles O41: the LINE_SET of the backlight line, which needs the configured link. -/
theorem backlightOnDrivesOne : Obligations.BacklightOnDrivesOne := fun s =>
  ⟨rfl, fun hlink => (exec_backlightOn s).trans (exec_lineSet .bl Config.blOn hlink),
    fun hlink => whenLinked_unlinked backlightOn hlink⟩

/-- Settles O42: the ready flag and the recorded error each refuse a second BRING_UP. -/
theorem bringUpRunsOnce : Obligations.BringUpRunsOnce := fun _ h =>
  exec_bringUp_refused (h.imp_right .inr)

end Sys2Proof.Machine
end

section
/-! PROOF. Exceptions (60_exceptions.md): E_INVALID_REGION, which FLUSH raises before it writes anything. -/

namespace Sys2Proof.Machine

/-- With a ready handle and no FLUSH in flight, an invalid rectangle raises E_INVALID_REGION, before the pixel list is
looked at (R230, R248). -/
theorem exec_flush_of_not_rectValid {s : State} {r : Rect} (ps : List Pixel) (hready : s.panelReady = true)
    (hidle : s.flush = none) (hr : rectValid r = false) :
    exec (.flush r ps) s = .next (raiseError (.invalidRegion r) s) := by
  have hnot : flushInFlight s = false := by rw [flushInFlight, hidle]; rfl
  change execFlush r ps s = _
  rw [execFlush, hready, hnot, hr]
  rfl

/-- Settles O46: R230's condition on the rectangle fails, and `raiseError` records the result only. -/
theorem flushRejectsABadRegion : Obligations.FlushRejectsABadRegion := by
  intro s r ps hready hidle hbad
  have hr : rectValid r = false := Bool.eq_false_iff.2 fun h => hbad ((rectValid_iff r).1 h)
  exact ⟨exec_flush_of_not_rectValid ps hready hidle hr, rfl⟩

end Sys2Proof.Machine
end

section
/-! PROOF. The encoding (30_encoding.md): operations to requests and back, and the requests that are no operation. -/

namespace Sys2Proof

open Machine

/-! Readers in sequence. -/

theorem bind_eq_ok {ε α β : Type} {x : Except ε α} {f : α → Except ε β} {b : β} :
    x >>= f = .ok b ↔ ∃ a, x = .ok a ∧ f a = .ok b := by
  cases x with
  | error e => exact ⟨fun h => (nomatch h), fun ⟨_, h, _⟩ => (nomatch h)⟩
  | ok a => exact ⟨fun h => ⟨a, rfl, h⟩, fun ⟨_, h, h'⟩ => by cases h; exact h'⟩

theorem ok_bind {ε α β : Type} (a : α) (f : α → Except ε β) : (Except.ok a >>= f) = f a := rfl

theorem error_bind {ε α β : Type} (e : ε) (f : α → Except ε β) : (Except.error e >>= f) = .error e := rfl

theorem pure_eq_ok {ε α : Type} {a b : α} : (pure a : Except ε α) = .ok b ↔ a = b :=
  ⟨fun h => Except.ok.inj h, fun h => congrArg _ h⟩

/-! Operands there and back. -/

theorem asDataPins_ofBytes (d : DataPins) : asDataPins (ofBytes d.toList) = .ok d := by
  simp only [asDataPins, asBytes_ofBytes, ok_bind]
  rw [dif_pos (by simp)]
  rfl

theorem ofBytes_of_asDataPins {ns : List Nat} {d : DataPins} (h : asDataPins ns = .ok d) :
    ofBytes d.toList = ns ∧ ns.length = 16 := by
  obtain ⟨bs, hbs, h⟩ := bind_eq_ok.1 h
  have hns := ofBytes_of_asBytes hbs
  split at h
  · rename_i hlen
    cases h
    exact ⟨by simpa using hns, by rw [← hns, length_ofBytes, hlen]⟩
  · cases h

theorem asCtrlPins_ofCtrlPins (c : CtrlPins) : asCtrlPins (ofCtrlPins c) = .ok c := by
  simp only [ofCtrlPins, ofBytes, List.map_cons, List.map_nil, asCtrlPins, asByte_toNat, ok_bind]
  rfl

theorem ofCtrlPins_of_asCtrlPins {ns : List Nat} {c : CtrlPins} (h : asCtrlPins ns = .ok c) : ofCtrlPins c = ns := by
  unfold asCtrlPins at h
  split at h
  · simp only [bind_eq_ok, pure_eq_ok] at h
    obtain ⟨_, hh, _, hv, _, hd, _, hp, rfl⟩ := h
    simp [ofCtrlPins, ofBytes, toNat_of_asByte hh, toNat_of_asByte hv, toNat_of_asByte hd, toNat_of_asByte hp]
  · cases h

theorem counted_eq_ok {n : Nat} {ns ms : List Nat} : counted n ns = .ok ms ↔ ns.length = n ∧ ns = ms := by
  unfold counted
  split <;> simp [*]

theorem asWriteEntry_ofWriteEntry (mk : PageOp → Word16 → List Byte → Instr) (op : PageOp) (c : Word16)
    (ps : List Byte) : asWriteEntry mk (ofWriteEntry op c ps) = .ok (mk op c ps) := by
  simp only [asWriteEntry, ofWriteEntry, asPageOp_ofPageOp, asWord_toNat, counted_eq (length_ofBytes ps),
    asBytes_ofBytes, ok_bind]
  rfl

theorem ofWriteEntry_of_asWriteEntry {mk : PageOp → Word16 → List Byte → Instr} {ns : List Nat} {i : Instr}
    (h : asWriteEntry mk ns = .ok i) : ∃ op c ps, i = mk op c ps ∧ ofWriteEntry op c ps = ns := by
  unfold asWriteEntry at h
  split at h
  · simp only [bind_eq_ok, pure_eq_ok, counted_eq_ok] at h
    obtain ⟨op, hop, c, hc, _, ⟨hn, rfl⟩, ps, hps, rfl⟩ := h
    refine ⟨op, c, ps, rfl, ?_⟩
    rw [ofWriteEntry, ofPageOp_of_asPageOp hop, toNat_of_asWord hc, ofBytes_of_asBytes hps, ← length_ofBytes,
      ofBytes_of_asBytes hps, hn]
  · cases h

/-! Decoding what was encoded. -/

theorem decodeTsConfigure_encoded (t : Timing) (d : DataPins) (c : CtrlPins) :
    decodeTsConfigure (ofTiming t ++ (ofBytes d.toList ++ ofCtrlPins c)) = .ok (.tsConfigure t d c) := by
  have hlen : (ofBytes d.toList).length = 16 := by simp
  simp only [ofTiming, List.cons_append, List.nil_append, decodeTsConfigure, asLevel_ofLevel, List.take_left' hlen,
    List.drop_left' hlen, asDataPins_ofBytes, asCtrlPins_ofCtrlPins, ok_bind]
  rfl

theorem decodeFlush_encoded (r : Rect) (ps : List Pixel) :
    decodeFlush (ofRect r ++ ps.length :: ofWords ps) = .ok (.flush r ps) := by
  simp only [ofRect, List.cons_append, List.nil_append, decodeFlush, counted_eq (length_ofWords ps), asWords_ofWords,
    ok_bind]
  rfl

theorem decodeWriteReg_encoded (c : Word16) (ps : List Byte) :
    decodeWriteReg (c.toNat :: ps.length :: ofBytes ps) = .ok (.writeReg c ps) := by
  simp only [decodeWriteReg, asWord_toNat, counted_eq (length_ofBytes ps), asBytes_ofBytes, ok_bind]
  rfl

/-- Bit 8 tells a command frame from a data frame (R81). -/
theorem decodeFrame_frameWord (m : Level) (p : Byte) :
    decodeFrame [frameWord m p] = .ok (if m then .frameData p else .frameCmd p) := by
  have hp : p.toNat < 256 := p.isLt
  rw [frameWord_eq]
  cases m with
  | false => simp [decodeFrame, hp]
  | true =>
    have hmod : BitVec.ofNat 8 (256 + p.toNat) = p := BitVec.eq_of_toNat_eq (by simp; omega)
    simp [decodeFrame, hmod]
    omega

theorem decodePair_frameWords (h l : Byte) :
    decodePair [frameWord false h, frameWord true l] = .ok (.splitCmd h l) := by
  have hh : h.toNat < 256 := h.isLt
  have hl : l.toNat < 256 := l.isLt
  have hmod : BitVec.ofNat 8 (256 + l.toNat) = l := BitVec.eq_of_toNat_eq (by simp; omega)
  simp only [frameWord_eq, decodePair]
  rw [if_pos (by simp; omega)]
  simp [hmod]

/-- The row a bus write decodes as is the one its register number names (R104). -/
theorem decodeBusWrite_busWords (a : BusAddr) (w : BitVec 1) (r l h : Byte) :
    decodeBusWrite (busWords a w r l h) = .ok (Instr.i2cWrite a w r l h).canonical := by
  simp only [busWords, ofBytes, List.map_cons, List.map_nil, decodeBusWrite, asByte_toNat, ok_bind, addrByte_address,
    addrByte_flag, Instr.canonical]
  split
  · rfl
  · split <;> rfl

theorem exec_canonical (i : Instr) (s : State) : exec i.canonical s = exec i s := by
  cases i with
  | i2cWrite a w r l h =>
    rw [Instr.canonical]
    split
    · subst r; rfl
    · split
      · subst r; rfl
      · rfl
  | _ => rfl

theorem decode_encode (i : Instr) : decode (encode i) = .ok i.canonical := by
  cases i with
  | frameCmd p => exact decodeFrame_frameWord false p
  | frameData p => exact decodeFrame_frameWord true p
  | splitCmd h l => exact decodePair_frameWords h l
  | i2cWrite a w r l h => exact decodeBusWrite_busWords a w r l h
  | i2cWriteDir a w l h => exact decodeBusWrite_busWords a w Config.expRegDir l h
  | i2cWriteOut a w l h => exact decodeBusWrite_busWords a w Config.expRegOut l h
  | entryWrite op c ps => exact asWriteEntry_ofWriteEntry .entryWrite op c ps
  | regopWrite op c ps => exact asWriteEntry_ofWriteEntry .regopWrite op c ps
  | writeReg c ps => exact decodeWriteReg_encoded c ps
  | tsConfigure t d c => exact decodeTsConfigure_encoded t d c
  | flush r ps => exact decodeFlush_encoded r ps
  | expSet p n =>
    show (do return Instr.expSet (← asPin (ofPin p)) (← asLevel (ofLevel n))) = _
    rw [asPin_ofPin, asLevel_ofLevel]; rfl
  | expGet p =>
    show (do return Instr.expGet (← asPin (ofPin p))) = _
    rw [asPin_ofPin]; rfl
  | sendData b =>
    show (do return Instr.sendData (← asByte b.toNat)) = _
    rw [asByte_toNat]; rfl
  | sendCommand c =>
    show (do return Instr.sendCommand (← asWord c.toNat)) = _
    rw [asWord_toNat]; rfl
  | xfer m p =>
    show (do return Instr.xfer (← asLevel (ofLevel m)) (← asByte p.toNat)) = _
    rw [asLevel_ofLevel, asByte_toNat]; rfl
  | lineSet l n =>
    show (do return Instr.lineSet (← asLine (ofLine l)) (← asLevel (ofLevel n))) = _
    rw [asLine_ofLine, asLevel_ofLevel]; rfl
  | cs n | clk n | sda n | rst n | bl n => cases n <;> rfl
  | _ => rfl

/-- Settles O1: each row's reader undoes its writer. -/
theorem decodeOfEncodeIsIdentity : Obligations.DecodeOfEncodeIsIdentity :=
  fun i => ⟨decode_encode i, exec_canonical i⟩

/-! Encoding what was decoded: each reader answers only what its row's writer would have written. -/

theorem noOperands_eq_ok {i j : Instr} {args : List Nat} (h : noOperands i args = .ok j) : i = j ∧ args = [] := by
  unfold noOperands at h
  split at h
  · exact ⟨Except.ok.inj h, rfl⟩
  · cases h

theorem decodeNat_eq_ok {mk : Nat → Instr} {args : List Nat} {i : Instr} (h : decodeNat mk args = .ok i) :
    ∃ n, i = mk n ∧ args = [n] := by
  unfold decodeNat at h
  split at h
  · exact ⟨_, (Except.ok.inj h).symm, rfl⟩
  · cases h

theorem decodeOneLevel_eq_ok {mk : Level → Instr} {args : List Nat} {i : Instr} (h : decodeOneLevel mk args = .ok i) :
    ∃ n, i = mk n ∧ args = [ofLevel n] := by
  unfold decodeOneLevel at h
  split at h
  · simp only [bind_eq_ok, pure_eq_ok] at h
    obtain ⟨n, hn, rfl⟩ := h
    exact ⟨n, rfl, by rw [ofLevel_of_asLevel hn]⟩
  · cases h

theorem encode_of_decodeExpSet {args : List Nat} {i : Instr} (h : decodeExpSet args = .ok i) :
    encode i = ⟨.descriptor, 0x02 :: args⟩ := by
  unfold decodeExpSet at h
  split at h
  · simp only [bind_eq_ok, pure_eq_ok] at h
    obtain ⟨p, hp, n, hn, rfl⟩ := h
    rw [encode, ofPin_of_asPin hp, ofLevel_of_asLevel hn]
  · cases h

theorem encode_of_decodeExpGet {args : List Nat} {i : Instr} (h : decodeExpGet args = .ok i) :
    encode i = ⟨.descriptor, 0x03 :: args⟩ := by
  unfold decodeExpGet at h
  split at h
  · simp only [bind_eq_ok, pure_eq_ok] at h
    obtain ⟨p, hp, rfl⟩ := h
    rw [encode, ofPin_of_asPin hp]
  · cases h

theorem encode_of_decodeSendData {args : List Nat} {i : Instr} (h : decodeSendData args = .ok i) :
    encode i = ⟨.descriptor, 0x11 :: args⟩ := by
  unfold decodeSendData at h
  split at h
  · simp only [bind_eq_ok, pure_eq_ok] at h
    obtain ⟨b, hb, rfl⟩ := h
    rw [encode, toNat_of_asByte hb]
  · cases h

theorem encode_of_decodeSendCommand {args : List Nat} {i : Instr} (h : decodeSendCommand args = .ok i) :
    encode i = ⟨.descriptor, 0x12 :: args⟩ := by
  unfold decodeSendCommand at h
  split at h
  · simp only [bind_eq_ok, pure_eq_ok] at h
    obtain ⟨c, hc, rfl⟩ := h
    rw [encode, toNat_of_asWord hc]
  · cases h

theorem encode_of_decodeTsConfigure {args : List Nat} {i : Instr} (h : decodeTsConfigure args = .ok i) :
    encode i = ⟨.descriptor, 0x30 :: args⟩ := by
  unfold decodeTsConfigure at h
  split at h
  · rename_i pins
    simp only [bind_eq_ok, pure_eq_ok] at h
    obtain ⟨_, hhs, _, hvs, _, hde, _, hinv, d, hd, c, hc, rfl⟩ := h
    simp only [encode, ofTiming, ofLevel_of_asLevel hhs, ofLevel_of_asLevel hvs, ofLevel_of_asLevel hde,
      ofLevel_of_asLevel hinv, (ofBytes_of_asDataPins hd).1, ofCtrlPins_of_asCtrlPins hc, List.take_append_drop,
      List.cons_append, List.nil_append]
  · cases h

theorem encode_of_decodeTsNotify {args : List Nat} {i : Instr} (h : decodeTsNotify args = .ok i) :
    encode i = ⟨.descriptor, 0x32 :: args⟩ := by
  unfold decodeTsNotify at h
  split at h <;> cases h
  rfl

theorem encode_of_decodeFlush {args : List Nat} {i : Instr} (h : decodeFlush args = .ok i) :
    encode i = ⟨.descriptor, 0x42 :: args⟩ := by
  unfold decodeFlush at h
  split at h
  · simp only [bind_eq_ok, pure_eq_ok, counted_eq_ok] at h
    obtain ⟨_, ⟨hn, rfl⟩, ps, hps, rfl⟩ := h
    rw [encode, ← length_ofWords, ofWords_of_asWords hps, hn]
    rfl
  · cases h

theorem encode_of_decodeXfer {args : List Nat} {i : Instr} (h : decodeXfer args = .ok i) :
    encode i = ⟨.descriptor, 0x80 :: args⟩ := by
  unfold decodeXfer at h
  split at h
  · simp only [bind_eq_ok, pure_eq_ok] at h
    obtain ⟨m, hm, p, hp, rfl⟩ := h
    rw [encode, ofLevel_of_asLevel hm, toNat_of_asByte hp]
  · cases h

theorem encode_of_decodeLineSet {args : List Nat} {i : Instr} (h : decodeLineSet args = .ok i) :
    encode i = ⟨.descriptor, 0x81 :: args⟩ := by
  unfold decodeLineSet at h
  split at h
  · simp only [bind_eq_ok, pure_eq_ok] at h
    obtain ⟨l, hl, n, hn, rfl⟩ := h
    rw [encode, ofLine_of_asLine hl, ofLevel_of_asLevel hn]
  · cases h

theorem encode_of_decodeWriteReg {args : List Nat} {i : Instr} (h : decodeWriteReg args = .ok i) :
    encode i = ⟨.pseudo, 5 :: args⟩ := by
  unfold decodeWriteReg at h
  split at h
  · simp only [bind_eq_ok, pure_eq_ok, counted_eq_ok] at h
    obtain ⟨c, hc, _, ⟨hn, rfl⟩, ps, hps, rfl⟩ := h
    rw [encode, toNat_of_asWord hc, ← length_ofBytes, ofBytes_of_asBytes hps, hn]
  · cases h

theorem encode_of_decodeFrame {ws : List Nat} {i : Instr} (h : decodeFrame ws = .ok i) :
    encode i = ⟨.serialFrame, ws⟩ := by
  unfold decodeFrame at h
  split at h
  · rename_i f
    split at h
    · cases h
      rw [encode, frameWord_eq]
      simp
      omega
    · split at h
      · cases h
        rw [encode, frameWord_eq]
        simp
        omega
      · cases h
  · cases h

theorem encode_of_decodePair {ws : List Nat} {i : Instr} (h : decodePair ws = .ok i) :
    encode i = ⟨.serialPair, ws⟩ := by
  unfold decodePair at h
  split at h
  · split at h
    · cases h
      simp only [encode, frameWord_eq]
      simp
      omega
    · cases h
  · cases h

/-- Byte 0 of a bus write is its address and its W flag (R85). -/
theorem addrByte_parts (b : Byte) : addrByte (b.extractLsb' 1 7) (b.extractLsb' 0 1) = b := by
  refine BitVec.eq_of_getLsbD_eq fun i hi => ?_
  refine (BitVec.getLsbD_append (x := b.extractLsb' 1 7) (y := b.extractLsb' 0 1) (i := i)).trans ?_
  simp only [BitVec.getLsbD_extractLsb']
  split
  · simp [*]
  · rw [show 1 + (i - 1) = i by omega]
    simp [show i - 1 < 7 by omega]

theorem encode_of_decodeBusWrite {ws : List Nat} {i : Instr} (h : decodeBusWrite ws = .ok i) :
    encode i = ⟨.busWrite, ws⟩ := by
  unfold decodeBusWrite at h
  split at h
  · simp only [bind_eq_ok] at h
    obtain ⟨aw, haw, r, hr, l, hl, b, hb, h⟩ := h
    have hi : encode i = ⟨.busWrite, busWords (aw.extractLsb' 1 7) (aw.extractLsb' 0 1) r l b⟩ := by
      split at h
      · cases h; subst r; rfl
      · split at h
        · cases h; subst r; rfl
        · cases h; rfl
    rw [hi, busWords, addrByte_parts]
    simp [ofBytes, toNat_of_asByte haw, toNat_of_asByte hr, toNat_of_asByte hl, toNat_of_asByte hb]
  · cases h

theorem encode_of_decodeDescriptor {op : Nat} {args : List Nat} {i : Instr} (h : decodeDescriptor op args = .ok i) :
    encode i = ⟨.descriptor, op :: args⟩ := by
  unfold decodeDescriptor at h
  split at h
  case h_2 => exact encode_of_decodeExpSet h
  case h_3 => exact encode_of_decodeExpGet h
  case h_5 => exact encode_of_decodeSendData h
  case h_6 => exact encode_of_decodeSendCommand h
  case h_9 => exact encode_of_decodeTsConfigure h
  case h_11 => exact encode_of_decodeTsNotify h
  case h_14 => exact encode_of_decodeFlush h
  case h_15 => exact encode_of_decodeXfer h
  case h_16 => exact encode_of_decodeLineSet h
  case h_19 =>
    obtain ⟨op, c, ps, rfl, rfl⟩ := ofWriteEntry_of_asWriteEntry h
    rfl
  case h_17 | h_18 | h_20 =>
    obtain ⟨n, rfl, rfl⟩ := decodeNat_eq_ok h
    rfl
  case h_22 => cases h
  all_goals
    obtain ⟨rfl, rfl⟩ := noOperands_eq_ok h
    rfl

theorem encode_of_decodeEntry {kind : Nat} {args : List Nat} {i : Instr} (h : decodeEntry kind args = .ok i) :
    encode i = ⟨.tableEntry, kind :: args⟩ := by
  unfold decodeEntry at h
  split at h
  · obtain ⟨op, c, ps, rfl, rfl⟩ := ofWriteEntry_of_asWriteEntry h
    rfl
  · obtain ⟨n, rfl, rfl⟩ := decodeNat_eq_ok h
    rfl
  · cases h

theorem encode_of_decodePseudo {kind : Nat} {args : List Nat} {i : Instr} (h : decodePseudo kind args = .ok i) :
    encode i = ⟨.pseudo, kind :: args⟩ := by
  unfold decodePseudo at h
  split at h
  case h_6 => exact encode_of_decodeWriteReg h
  case h_7 => cases h
  all_goals
    obtain ⟨n, rfl, rfl⟩ := decodeOneLevel_eq_ok h
    rfl

/-- Settles O2: by the request's format, then by its row's reader. -/
theorem encodeOfDecodeIsIdentity : Obligations.EncodeOfDecodeIsIdentity := by
  rintro ⟨f, ws⟩ i h
  unfold decode at h
  dsimp only at h
  split at h
  · exact encode_of_decodeFrame h
  · exact encode_of_decodePair h
  · exact encode_of_decodeBusWrite h
  · exact encode_of_decodeDescriptor h
  · exact encode_of_decodeEntry h
  · exact encode_of_decodePseudo h
  all_goals cases h

/-! Requests that are no operation (R101): each reader names what it cannot read. -/

theorem asByte_error {n : Nat} (h : 256 ≤ n) : asByte n = .error (.badByte n) := if_neg (by omega)

theorem asByte_ok {n : Nat} (h : n < 256) : ∃ b, asByte n = .ok b := ⟨_, if_pos h⟩

theorem asWord_error {n : Nat} (h : 65536 ≤ n) : asWord n = .error (.badWord n) := if_neg (by omega)

theorem asWord_ok {n : Nat} (h : n < 65536) : ∃ w, asWord n = .ok w := ⟨_, if_pos h⟩

theorem asLevel_error {n : Nat} (h : 2 ≤ n) : asLevel n = .error (.badLevel n) := by
  match n, h with
  | _ + 2, _ => rfl

theorem asLevel_ok {n : Nat} (h : n < 2) : ∃ b, asLevel n = .ok b := by
  match n, h with
  | 0, _ | 1, _ => exact ⟨_, rfl⟩

theorem asPin_error {n : Nat} (h : 2 ≤ n) : asPin n = .error (.badPin n) := by
  match n, h with
  | _ + 2, _ => rfl

theorem asPin_ok {n : Nat} (h : n < 2) : ∃ p, asPin n = .ok p := by
  match n, h with
  | 0, _ | 1, _ => exact ⟨_, rfl⟩

theorem asLine_error {n : Nat} (h : 3 ≤ n) : asLine n = .error (.badLine n) := by
  match n, h with
  | _ + 3, _ => rfl

theorem asLine_ok {n : Nat} (h : n < 3) : ∃ l, asLine n = .ok l := by
  match n, h with
  | 0, _ | 1, _ | 2, _ => exact ⟨_, rfl⟩

theorem asPageOp_error {n : Nat} (h : 2 ≤ n) : asPageOp n = .error (.badPageOp n) := by
  match n, h with
  | _ + 2, _ => rfl

theorem asPageOp_ok {n : Nat} (h : n < 2) : ∃ o, asPageOp n = .ok o := by
  match n, h with
  | 0, _ | 1, _ => exact ⟨_, rfl⟩

theorem asBytes_ok {bs : List Nat} (h : ∀ b ∈ bs, b < 256) : ∃ cs, asBytes bs = .ok cs := by
  induction bs with
  | nil => exact ⟨[], rfl⟩
  | cons b bs ih =>
    obtain ⟨c, hc⟩ := asByte_ok (h b List.mem_cons_self)
    obtain ⟨cs, hcs⟩ := ih fun x hx => h x (List.mem_cons_of_mem _ hx)
    exact ⟨c :: cs, by rw [asBytes, hc, hcs]; rfl⟩

theorem asBytes_error {bs : List Nat} {n : Nat} (h : ∀ b ∈ bs, b < 256) (hn : 256 ≤ n) (cs : List Nat) :
    asBytes (bs ++ n :: cs) = .error (.badByte n) := by
  induction bs with
  | nil => rw [List.nil_append, asBytes, asByte_error hn]; rfl
  | cons b bs ih =>
    obtain ⟨c, hc⟩ := asByte_ok (h b List.mem_cons_self)
    rw [List.cons_append, asBytes, hc, ih fun x hx => h x (List.mem_cons_of_mem _ hx)]
    rfl

theorem asWords_error {ws : List Nat} {n : Nat} (h : ∀ w ∈ ws, w < 65536) (hn : 65536 ≤ n) (cs : List Nat) :
    asWords (ws ++ n :: cs) = .error (.badWord n) := by
  induction ws with
  | nil => rw [List.nil_append, asWords, asWord_error hn]; rfl
  | cons w ws ih =>
    obtain ⟨c, hc⟩ := asWord_ok (h w List.mem_cons_self)
    rw [List.cons_append, asWords, hc, ih fun x hx => h x (List.mem_cons_of_mem _ hx)]
    rfl

/-- Of four operands read in order the first that is outside its set is named. -/
theorem readFour_error {α β : Type} {rd : Nat → Except DecodeError α} {ls ms : List Nat} {n : Nat} {e : DecodeError}
    (hls : ∀ l ∈ ls, ∃ a, rd l = .ok a) (hn : rd n = .error e) {x0 x1 x2 x3 : Nat}
    (h : ls ++ n :: ms = [x0, x1, x2, x3]) (f : α → α → α → α → Except DecodeError β) :
    (do let a ← rd x0; let b ← rd x1; let c ← rd x2; let d ← rd x3; f a b c d) = .error e := by
  match ls, hls, h with
  | [], _, h =>
    obtain ⟨rfl, -⟩ := List.cons.inj h
    rw [hn]; rfl
  | [l0], hls, h =>
    obtain ⟨rfl, rfl, -⟩ : l0 = x0 ∧ n = x1 ∧ ms = [x2, x3] := by simpa using h
    obtain ⟨a, ha⟩ := hls l0 (by simp)
    rw [ha, hn]; rfl
  | [l0, l1], hls, h =>
    obtain ⟨rfl, rfl, rfl, -⟩ : l0 = x0 ∧ l1 = x1 ∧ n = x2 ∧ ms = [x3] := by simpa using h
    obtain ⟨a, ha⟩ := hls l0 (by simp)
    obtain ⟨b, hb⟩ := hls l1 (by simp)
    rw [ha, hb, hn]; rfl
  | [l0, l1, l2], hls, h =>
    obtain ⟨rfl, rfl, rfl, rfl, -⟩ : l0 = x0 ∧ l1 = x1 ∧ l2 = x2 ∧ n = x3 ∧ ms = [] := by simpa using h
    obtain ⟨a, ha⟩ := hls l0 (by simp)
    obtain ⟨b, hb⟩ := hls l1 (by simp)
    obtain ⟨c, hc⟩ := hls l2 (by simp)
    rw [ha, hb, hc, hn]; rfl
  | _ :: _ :: _ :: _ :: _, _, h => simp at h

theorem eq_four_of_length {ws : List Nat} (h : ws.length = 4) : ∃ x0 x1 x2 x3, ws = [x0, x1, x2, x3] := by
  match ws, h with
  | [x0, x1, x2, x3], _ => exact ⟨x0, x1, x2, x3, rfl⟩

theorem decodeBusWrite_error {bs cs : List Nat} {n : Nat} (h : ∀ b ∈ bs, b < 256) (hn : 256 ≤ n)
    (hlen : (bs ++ n :: cs).length = 4) : decodeBusWrite (bs ++ n :: cs) = .error (.badByte n) := by
  obtain ⟨x0, x1, x2, x3, hx⟩ := eq_four_of_length hlen
  rw [hx]
  exact readFour_error (fun b hb => asByte_ok (h b hb)) (asByte_error hn) hx _

theorem asCtrlPins_error {bs cs : List Nat} {n : Nat} (h : ∀ b ∈ bs, b < 256) (hn : 256 ≤ n)
    (hlen : (bs ++ n :: cs).length = 4) : asCtrlPins (bs ++ n :: cs) = .error (.badByte n) := by
  obtain ⟨x0, x1, x2, x3, hx⟩ := eq_four_of_length hlen
  rw [hx]
  exact readFour_error (fun b hb => asByte_ok (h b hb)) (asByte_error hn) hx _

theorem asDataPins_error {bs cs : List Nat} {n : Nat} (h : ∀ b ∈ bs, b < 256) (hn : 256 ≤ n) :
    asDataPins (bs ++ n :: cs) = .error (.badByte n) := by
  rw [asDataPins, asBytes_error h hn, error_bind]

theorem asDataPins_ok {ns : List Nat} (h : ∀ b ∈ ns, b < 256) (hlen : ns.length = 16) : ∃ d, asDataPins ns = .ok d := by
  obtain ⟨bs, hbs⟩ := asBytes_ok h
  rw [asDataPins, hbs, ok_bind, dif_pos (by rw [← length_ofBytes, ofBytes_of_asBytes hbs, hlen])]
  exact ⟨_, rfl⟩

/-- The twenty pins of a configuration, split into data pins and control pins. -/
theorem asPins_error {β : Type} {bs cs : List Nat} {n : Nat} (h : ∀ b ∈ bs, b < 256) (hn : 256 ≤ n)
    (hlen : (bs ++ n :: cs).length = 20) (f : DataPins → CtrlPins → Except DecodeError β) :
    (do let d ← asDataPins ((bs ++ n :: cs).take 16); let c ← asCtrlPins ((bs ++ n :: cs).drop 16); f d c) =
      .error (.badByte n) := by
  by_cases hb : bs.length < 16
  · obtain ⟨k, hk⟩ : ∃ k, 16 - bs.length = k + 1 := ⟨15 - bs.length, by omega⟩
    rw [List.take_append, hk, List.take_succ_cons, List.take_of_length_le (by omega), asDataPins_error h hn]
    rfl
  · rw [List.take_append_of_le_length (by omega), List.drop_append_of_le_length (by omega)]
    obtain ⟨d, hd⟩ := asDataPins_ok (ns := bs.take 16) (fun b hm => h b (List.mem_of_mem_take hm))
      (by rw [List.length_take]; omega)
    rw [hd, asCtrlPins_error (fun b hm => h b (List.mem_of_mem_drop hm)) hn]
    · rfl
    · simp only [List.length_append, List.length_drop, List.length_cons] at hlen ⊢
      omega

theorem asWriteEntry_badPageOp {mk : PageOp → Word16 → List Byte → Instr} {o : Nat} (ho : 2 ≤ o) (c n : Nat)
    (bs : List Nat) : asWriteEntry mk (o :: c :: n :: bs) = .error (.badPageOp o) := by
  rw [asWriteEntry, asPageOp_error ho, error_bind]

theorem asWriteEntry_badWord {mk : PageOp → Word16 → List Byte → Instr} {o c : Nat} (ho : o < 2) (hc : 65536 ≤ c)
    (n : Nat) (bs : List Nat) : asWriteEntry mk (o :: c :: n :: bs) = .error (.badWord c) := by
  obtain ⟨op, hop⟩ := asPageOp_ok ho
  rw [asWriteEntry, hop, asWord_error hc]
  rfl

theorem asWriteEntry_badByte {mk : PageOp → Word16 → List Byte → Instr} {o c n : Nat} {bs : List Nat} (ho : o < 2)
    (hc : c < 65536) (h : ∀ b ∈ bs, b < 256) (hn : 256 ≤ n) (cs : List Nat) :
    asWriteEntry mk (o :: c :: (bs ++ n :: cs).length :: (bs ++ n :: cs)) = .error (.badByte n) := by
  obtain ⟨op, hop⟩ := asPageOp_ok ho
  obtain ⟨code, hcode⟩ := asWord_ok hc
  rw [asWriteEntry, hop, hcode, counted_eq rfl, ok_bind, ok_bind, ok_bind, asBytes_error h hn, error_bind]

theorem decodeWriteReg_badByte {c n : Nat} {bs : List Nat} (hc : c < 65536) (h : ∀ b ∈ bs, b < 256) (hn : 256 ≤ n)
    (cs : List Nat) : decodeWriteReg (c :: (bs ++ n :: cs).length :: (bs ++ n :: cs)) = .error (.badByte n) := by
  obtain ⟨code, hcode⟩ := asWord_ok hc
  rw [decodeWriteReg, hcode, counted_eq rfl, ok_bind, ok_bind, asBytes_error h hn, error_bind]

theorem decodeOneLevel_error {mk : Level → Instr} {n : Nat} (hn : 2 ≤ n) :
    decodeOneLevel mk [n] = .error (.badLevel n) := by
  rw [decodeOneLevel, asLevel_error hn, error_bind]

theorem decodeTsConfigure_badLevel {ls ms : List Nat} {n : Nat} (h : ∀ l ∈ ls, l < 2) (hn : 2 ≤ n)
    (hlen : (ls ++ n :: ms).length = 4) (a b c d e f g k i : Nat) (pins : List Nat) :
    decodeTsConfigure (a :: b :: c :: d :: e :: f :: g :: k :: i :: ((ls ++ n :: ms) ++ pins)) =
      .error (.badLevel n) := by
  obtain ⟨x0, x1, x2, x3, hx⟩ := eq_four_of_length hlen
  rw [hx]
  exact readFour_error (fun l hl => asLevel_ok (h l hl)) (asLevel_error hn) hx _

theorem decodeTsConfigure_badByte {hs vs de inv n : Nat} {bs cs : List Nat} (hhs : hs < 2) (hvs : vs < 2)
    (hde : de < 2) (hinv : inv < 2) (h : ∀ b ∈ bs, b < 256) (hn : 256 ≤ n) (hlen : (bs ++ n :: cs).length = 20)
    (a b c d e f g k i : Nat) :
    decodeTsConfigure (a :: b :: c :: d :: e :: f :: g :: k :: i :: hs :: vs :: de :: inv :: (bs ++ n :: cs)) =
      .error (.badByte n) := by
  obtain ⟨_, e1⟩ := asLevel_ok hhs
  obtain ⟨_, e2⟩ := asLevel_ok hvs
  obtain ⟨_, e3⟩ := asLevel_ok hde
  obtain ⟨_, e4⟩ := asLevel_ok hinv
  rw [decodeTsConfigure, e1, e2, e3, e4]
  exact asPins_error h hn hlen _

/-- Settles O5: one clause for each place an operand stands at. -/
theorem operandsOutsideTheirSetsDoNotDecode : Obligations.OperandsOutsideTheirSetsDoNotDecode := by
  refine ⟨fun p n hp => ?_, fun p n hp hn => ?_, fun p hp => ?_, fun l n hl => ?_, fun l n hl hn => ?_,
    fun m b hm => ?_, fun m b hm hb => ?_, fun b hb => ?_, fun c hc => ?_,
    fun bs n cs hbs hn hlen => decodeBusWrite_error hbs hn hlen, fun k n hk hn => ?_, fun f k hfk => ?_,
    fun c n bs hc => ?_, fun c bs n cs hc hbs hn => decodeWriteReg_badByte hc hbs hn cs,
    fun x0 y0 x1 y1 ps n qs hps hn => ?_,
    fun a b c d e f g h i ls n ms pins hls hn hlen =>
      decodeTsConfigure_badLevel hls hn hlen a b c d e f g h i pins,
    fun a b c d e f g h i hs vs de inv bs n cs hhs hvs hde hinv hbs hn hlen =>
      decodeTsConfigure_badByte hhs hvs hde hinv hbs hn hlen a b c d e f g h i⟩
  · show decodeExpSet [p, n] = _
    rw [decodeExpSet, asPin_error hp, error_bind]
  · obtain ⟨pin, hpin⟩ := asPin_ok hp
    show decodeExpSet [p, n] = _
    rw [decodeExpSet, hpin, asLevel_error hn]; rfl
  · show decodeExpGet [p] = _
    rw [decodeExpGet, asPin_error hp, error_bind]
  · show decodeLineSet [l, n] = _
    rw [decodeLineSet, asLine_error hl, error_bind]
  · obtain ⟨line, hline⟩ := asLine_ok hl
    show decodeLineSet [l, n] = _
    rw [decodeLineSet, hline, asLevel_error hn]; rfl
  · show decodeXfer [m, b] = _
    rw [decodeXfer, asLevel_error hm, error_bind]
  · obtain ⟨mode, hmode⟩ := asLevel_ok hm
    show decodeXfer [m, b] = _
    rw [decodeXfer, hmode, asByte_error hb]; rfl
  · show decodeSendData [b] = _
    rw [decodeSendData, asByte_error hb, error_bind]
  · show decodeSendCommand [c] = _
    rw [decodeSendCommand, asWord_error hc, error_bind]
  · match k, hk with
    | 0, _ | 1, _ | 2, _ | 3, _ | 4, _ => exact decodeOneLevel_error hn
  · rcases hfk with hfk | hfk <;> cases hfk <;>
      exact ⟨fun o c n bs ho => asWriteEntry_badPageOp ho c n bs, fun o c n bs ho hc => asWriteEntry_badWord ho hc n bs,
        fun o c bs n cs ho hc hbs hn => asWriteEntry_badByte ho hc hbs hn cs⟩
  · show decodeWriteReg (c :: n :: bs) = _
    rw [decodeWriteReg, asWord_error hc, error_bind]
  · show decodeFlush (x0 :: y0 :: x1 :: y1 :: _ :: _) = _
    rw [decodeFlush, counted_eq rfl, ok_bind, asWords_error hps hn, error_bind]

/-- Settles O3: seven fixed words. -/
theorem specWordsDecode : Obligations.SpecWordsDecode := by
  unfold Obligations.SpecWordsDecode
  decide

end Sys2Proof
end

section
/-! PROOF. Whose turn a step is (60_exceptions.md R248, R256), and what reset leaves (10_state.md R45). -/

namespace Sys2Proof.Machine

/-! A step by the turn that is fixed. -/

theorem step_streamer {s : State} {ts : List Turn} (h : s.turns = .streamer :: ts) :
    step s = streamerMove { s with turns := ts } := by
  simp only [step, nextTurn, h]

theorem step_sequencer {s : State} {ts : List Turn} (h : s.turns = .sequencer :: ts) :
    step s = bringUpContinue { s with turns := ts } := by
  simp only [step, nextTurn, h]

theorem step_writer {s : State} {ts : List Turn} (h : s.turns = .writer :: ts) :
    step s = flushContinue { s with turns := ts } := by
  simp only [step, nextTurn, h]

theorem step_request {s : State} {ts : List Turn} (h : s.turns = .request :: ts) :
    step s = requestMove { s with turns := ts } := by
  simp only [step, nextTurn, h]

/-! The host's move. -/

theorem requestMove_rejected {s : State} {q : Request} {qs : List Request} {e : DecodeError}
    (hr : s.bringUpReturning = false) (hq : s.requests = q :: qs) (hd : decode q = .error e) :
    requestMove s = .refused (.badRequest e) := by
  simp [requestMove, fetchRequest, hr, hq, hd]

theorem requestMove_issued {s : State} {q : Request} {qs : List Request} {i : Instr}
    (hr : s.bringUpReturning = false) (hq : s.requests = q :: qs) (hd : decode q = .ok i) (hm : mayIssue i s = true) :
    requestMove s = exec i { s with requests := qs } := by
  simp [requestMove, fetchRequest, hr, hq, hd, hm]

theorem requestMove_waits {s : State} {q : Request} {qs : List Request} {i : Instr} (hq : s.requests = q :: qs)
    (hd : decode q = .ok i) (hm : mayIssue i s = false) : requestMove s = .next s := by
  simp [requestMove, fetchRequest, hq, hd, hm]

theorem requestMove_returning {s : State} (h : s.bringUpReturning = true) : requestMove s = .next s := by
  simp [requestMove, fetchRequest, h]

theorem isFlush_iff (i : Instr) : isFlush i = true ↔ ∃ r ps, i = .flush r ps := by
  cases i <;> simp [isFlush]

/-- Only a FLUSH does not wait for a FLUSH in flight (R248, R233). -/
theorem mayIssue_iff (i : Instr) (s : State) : mayIssue i s = true ↔ s.flush = none ∨ ∃ r ps, i = .flush r ps := by
  rw [mayIssue, Bool.or_eq_true, isFlush_iff, or_comm]
  simp [flushInFlight]

/-- A number that is none of R100's names no operation. -/
theorem decodeDescriptor_unknown {op : Nat} (h : op ∉ [0x01, 0x02, 0x03, 0x10, 0x11, 0x12, 0x20, 0x21, 0x30, 0x31,
    0x32, 0x40, 0x41, 0x42, 0x80, 0x81, 0x82, 0x83, 0x84, 0x85, 0x86]) (args : List Nat) :
    decodeDescriptor op args = .error (.unknownOpId op) := by
  unfold decodeDescriptor
  split
  case h_22 => rfl
  all_goals exact absurd (by decide) h

/-- Settles O4: the decoder's last arm, and the step that refuses what it rejects. -/
theorem unknownOpIdIsRefused : Obligations.UnknownOpIdIsRefused := by
  intro s ts qs op args hturn hret hq hop
  rw [step_request hturn]
  exact requestMove_rejected hret hq (decodeDescriptor_unknown hop args)

/-- Settles O6: the request issued, and the two reasons for which it waits. -/
theorem stepRunsTheDecodedRequest : Obligations.StepRunsTheDecodedRequest := by
  intro s ts q qs i hturn hq hd
  rw [step_request hturn]
  refine ⟨fun hret hidle => ?_, fun hret => requestMove_returning hret, fun hflight hnot => ?_⟩
  · exact requestMove_issued hret hq hd ((mayIssue_iff i _).2 hidle)
  · refine requestMove_waits hq hd (Bool.eq_false_iff.2 fun hm => ?_)
    obtain hidle | ⟨r, ps, rfl⟩ := (mayIssue_iff i _).1 hm
    · exact hflight hidle
    · exact hnot r ps rfl

/-- Settles O7: the Streamer's move is a tick exactly while RUNNING. -/
theorem streamerTurnIsOneTick : Obligations.StreamerTurnIsOneTick := by
  intro s ts hturn
  rw [step_streamer hturn]
  exact ⟨fun hrun => (if_pos hrun).trans (if_pos hrun).symm, fun hnot => if_neg hnot⟩

/-- Settles O8: placing a request is undone by taking it. -/
theorem fetchedWordRunsNext : Obligations.FetchedWordRunsNext := by
  intro s nbits w i hret hidle hw
  have hd : decode (tableRequest nbits w) = .ok i := by
    rw [decodeTableWord] at hw
    cases hdec : decode (tableRequest nbits w) with
    | error e => rw [hdec] at hw; cases hw
    | ok j => rw [hdec] at hw; exact congrArg _ (Option.some.inj hw)
  have hturn : (s.withFetchWord nbits w).turns = .request :: s.turns := rfl
  rw [step_request hturn]
  exact requestMove_issued (qs := s.requests) hret rfl hd ((mayIssue_iff i _).2 hidle)

/-- Settles O9: each field of `State.resetWith` as R45's table has it. -/
theorem resetLeavesTheStatedValues : Obligations.ResetLeavesTheStatedValues := by
  refine ⟨fun p => ?_, rfl⟩
  refine ⟨rfl, rfl, rfl, rfl, rfl, rfl, rfl, rfl, rfl, rfl, rfl, rfl, rfl, rfl, rfl, rfl, rfl, rfl, rfl, rfl, rfl, rfl,
    rfl, rfl, rfl⟩

end Sys2Proof.Machine
end

section
/-! PROOF. ExpanderBus (40_expander_bus.md): the single-bit insert and the bus-write rows. -/

namespace Sys2Proof.Machine

/-- Settles O10: by the bits of an insert. -/
theorem insertBitWritesOneBit : Obligations.InsertBitWritesOneBit := by
  intro w b k v
  rw [getLsbD_insertBit w b v k.val k.isLt]
  exact if_congr Fin.ext_iff.symm rfl rfl

/-- A bus transaction in full: the chip takes the word where it is addressed and acknowledges (R112). -/
theorem i2cTransaction_eq (a : BusAddr) (reg l h : Byte) (s : State) :
    i2cTransaction a reg l h s = (ackAt s 0, { afterAcks 1 s with
      expHwOut := if (a = s.params.expAddr ∧ ackAt s 0 = .ok) ∧ reg = Config.expRegOut
        then joinBytes h l else s.expHwOut,
      expHwDir := if (a = s.params.expAddr ∧ ackAt s 0 = .ok) ∧ reg = Config.expRegDir
        then joinBytes h l else s.expHwDir,
      tr := s.tr ++ [.i2cWrite a reg l h (ackAt s 0)] }) := by
  simp only [i2cTransaction, askAck_eq]
  cases ackAt s 0 with
  | nack => simp [emit, afterAcks]
  | ok =>
    have hne : ¬Config.expRegOut = Config.expRegDir := by decide
    by_cases ha : a = s.params.expAddr
    · by_cases ho : reg = Config.expRegOut
      · subst ho
        simp [chipWrite, ha, hne, emit, afterAcks]
      · by_cases hd : reg = Config.expRegDir
        · subst hd
          simp [chipWrite, ha, ho, emit, afterAcks]
        · simp [chipWrite, ha, ho, hd, emit, afterAcks]
    · simp [chipWrite, ha, emit, afterAcks]

theorem busWriteRow_accepted (a : BusAddr) (r l h : Byte) (s : State) :
    busWriteRow a 0 r l h s = .next (returned .void (i2cTransaction a r l h s).2) := if_pos rfl

theorem busWriteRow_refused (a : BusAddr) (r l h : Byte) (s : State) :
    busWriteRow a 1 r l h s = .refused .badOperand := if_neg (by decide)

/-- Settles O15: the three rows are one bus transaction each, refused where the W flag is not a write's. -/
theorem busWriteReplacesOneRegister : Obligations.BusWriteReplacesOneRegister := by
  intro s a r l h hit after
  have row : ∀ reg : Byte, busWriteRow a 0 reg l h s = .next (after reg) := fun reg => by
    rw [busWriteRow_accepted, i2cTransaction_eq]
    rfl
  exact ⟨row r, row 0x06, row 0x02, busWriteRow_refused a r l h s, busWriteRow_refused a 0x06 l h s,
    busWriteRow_refused a 0x02 l h s⟩

end Sys2Proof.Machine
end

section
/-! PROOF. BitBangLink (41_bitbang_link.md): the refusals before LINK_INIT, delays, and the operations made of
frames. -/

namespace Sys2Proof.Machine

/-- Settles O18: each of these rows is guarded by `link_configured`. -/
theorem linkOperationsNeedLinkInit : Obligations.LinkOperationsNeedLinkInit := by
  intro i s hi hlink
  cases i with
  | splitCmd h l => exact whenLinked_unlinked (fun t => xfer Config.modeData l (xfer Config.modeCmd h t)) hlink
  | frameCmd _ | frameData _ | entryWrite _ _ _ | entryDelay _ | sendData _ | sendCommand _ | panelReset
  | progRun | backlightOn | xfer _ _ | lineSet _ _ | delayUs _ | delayMs _ | regopWrite _ _ _ | regopDelay _ | clk _
  | sda _ | bl _ | writeReg _ _ => exact whenLinked_unlinked _ hlink
  | _ => cases hi

/-- Settles O20: a delay is its event, also where it is an entry of the table. -/
theorem delaysEmitTheirEvent : Obligations.DelaysEmitTheirEvent := fun _ n hlink =>
  ⟨whenLinked_linked (delayUs n) hlink, whenLinked_linked (delayMs n) hlink, whenLinked_linked (delayMs n) hlink,
    whenLinked_linked (delayMs n) hlink⟩

/-- Settles O22: the rows are XFERs of their mode. -/
theorem sendDataIsOneDataFrame : Obligations.SendDataIsOneDataFrame := by
  intro s b hlink after
  have frame : ∀ m, exec (.xfer m b) s = .next (after m) := fun m => by
    rw [exec_xfer m b hlink, xfer_eq]
    rfl
  exact ⟨frame true, frame true, frame false⟩

/-- Two chip-select cycles in a row: the second takes the answers after the first's, and finds the mirror's
chip-select bit set. -/
theorem xfer_xfer_eq (m m' : Level) (a b : Byte) (s : State) :
    xfer m' b (xfer m a s) = { afterBusAcks 4 s with
      expMirror := mirrorAfterXfer s, expHwOut := outAfterXfer s (outAfterXfer s s.expHwOut 0) 2,
      clk := .driven false, sda := .driven (b.getLsbD 0),
      tr := s.tr ++ (xferEvents s.params s.expInitialized s.expMirror m a (ackAt s 0) (ackAt s 1) ++
        xferEvents s.params s.expInitialized s.expMirror m' b (ackAt s 2) (ackAt s 3)) } := by
  cases h : s.expInitialized with
  | false =>
    have h' : (xfer m a s).expInitialized = false := (sends_xfer m a s).expInitialized.trans h
    rw [xfer_uninitialised m' b h', xfer_uninitialised m a h]
    simp [afterBusAcks, mirrorAfterXfer, outAfterXfer, xferEvents, busSet, h]
  | true =>
    have h' : (xfer m a s).expInitialized = true := (sends_xfer m a s).expInitialized.trans h
    have hack : ∀ k, ackAt (xfer m a s) k = ackAt s (2 + k) := fun k => by
      rw [xfer_initialised m a h]
      exact ackAt_afterAcks s 2 k
    have hshape : ∀ r r', xferEvents (xfer m a s).params true (xfer m a s).expMirror m' b r r' =
        xferEvents s.params true s.expMirror m' b r r' := fun r r' => by
      rw [(sends_xfer m a s).params, xfer_expMirror, mirrorAfterXfer, if_pos h, xferEvents_insertBit_csBit]
    rw [xfer_initialised m' b h', hshape]
    simp only [hack, outAfterXfer, mirrorAfterXfer, h', h, if_true]
    rw [xfer_initialised m a h]
    simp [afterBusAcks, afterAcks, mirrorAfterXfer, outAfterXfer, insertBit_insertBit, h]
    omega

/-- Settles O23: two chip-select cycles, the code's high byte first. -/
theorem sendCommandSendsTwoFrames : Obligations.SendCommandSendsTwoFrames := by
  intro s h l hlink t
  have two : whenLinked (fun u => xfer Config.modeData l (xfer Config.modeCmd h u)) s = .next t := by
    rw [whenLinked_linked _ hlink, xfer_xfer_eq]
    rfl
  refine ⟨?_, two⟩
  have hsend : sendCommand (h ++ l) = fun u => xfer Config.modeData l (xfer Config.modeCmd h u) := by
    funext u
    show xfer _ (lowByte (joinBytes h l)) (xfer _ (highByte (joinBytes h l)) u) = _
    rw [lowByte_joinBytes, highByte_joinBytes]
  show whenLinked (sendCommand (h ++ l)) s = _
  rw [hsend, two]

/-- The replay of a WRITE entry, in full but for the answers it got (R148, R164). -/
theorem writeReg_eq (c : Word16) (ps : List Byte) (s : State) :
    ∃ es a d, es.map eraseAck = entryShape s.params s.expInitialized s.expMirror (.write .setParam c ps) ∧
      writeReg c ps s = { s with
        tr := s.tr ++ es, acks := a, draws := d, expMirror := mirrorAfterXfer s,
        expHwOut := chipRegAfter s.params 0x02 s.expHwOut es,
        clk := .driven false, sda := padAfter .sda s.sda es } := by
  obtain ⟨es, a, d, hes, hrun⟩ := sends_replayEntry (.write .setParam c ps) s
  refine ⟨es, a, d, hes, ?_⟩
  have hrun' : writeReg c ps s = _ := hrun
  rw [hrun', chipRegAfter_entryShape, ← padAfter_map_eraseAck .clk, hes, padAfter_clk_entryShape]
  cases h : s.expInitialized <;> simp [entryIsWrite, mirrorAfterXfer, h]

/-- Settles O24: the three rows replay the same entry, whatever its opcode. -/
theorem writeRegSendsCodeThenBytes : Obligations.WriteRegSendsCodeThenBytes := by
  intro s c ps op hlink
  obtain ⟨es, a, d, hes, hrun⟩ := writeReg_eq c ps s
  have hnew : newEvents s (returned .void (writeReg c ps s)) = es := by rw [hrun]; exact List.drop_left
  have hexec : whenLinked (writeReg c ps) s = .next (returned .void (writeReg c ps s)) := whenLinked_linked _ hlink
  refine ⟨_, hexec, hexec, hexec, ?_, ?_, ?_⟩
  · rw [hrun]
    exact List.prefix_append _ _
  · rw [hnew, hes]
    rfl
  · rw [hnew, hrun]
    rfl

end Sys2Proof.Machine
end

section
/-! PROOF. TimingStreamer (43_timing_streamer.md): TS_START's allocation and the pixel of one TS_TICK. -/

namespace Sys2Proof.Machine

/-! TS_START: its refusals (R185, R287). -/

theorem exec_tsStart_not_configured {s : State} (h : s.tsState ≠ .configured) :
    exec .tsStart s = .refused .notConfiguredOrAlreadyRunning := by
  show execTsStart s = _
  rw [execTsStart, tsStartRefusal, if_pos h]

theorem exec_tsStart_after_failure {s : State} (h : s.tsState = .configured) (he : s.bringupError ≠ none) :
    exec .tsStart s = .refused .bringUpFailed := by
  show execTsStart s = _
  rw [execTsStart, tsStartRefusal, if_neg (not_not.2 h), if_pos (Option.isSome_iff_ne_none.2 he)]

theorem exec_tsStart_accepted {s : State} (h : s.tsState = .configured) (he : s.bringupError = none) :
    exec .tsStart s = .next (finish (tsStart s)) := by
  show execTsStart s = _
  rw [execTsStart, tsStartRefusal, if_neg (not_not.2 h), he]
  rfl

/-! TS_START: one round of allocation for each buffer. -/

/-- The pool a buffer comes from. -/
def roundPool (a : AllocRound) : Pool := if a = .primaryOk then .primary else .secondary

/-- A round gets a fresh buffer, or leaves no more than its events. -/
theorem allocBuffer_round (k : Buffer) (s : State) :
    (∃ a as d fb, a ≠ .bothFail ∧ fb.cells = [] ∧ allocBuffer k s = (setBuffer { s with
      allocAnswers := as, draws := d, fbPool := roundPool a, tr := s.tr ++ roundEvents a } k fb, true)) ∨
    ∃ as d, allocBuffer k s =
      ({ s with allocAnswers := as, draws := d, tr := s.tr ++ roundEvents .bothFail }, false) := by
  obtain ⟨as, d, h | h | h⟩ := allocBuffer_cases k s
  · exact .inl ⟨.primaryOk, as, d + 1, { drawn := d, cells := [] }, by decide, rfl, h⟩
  · exact .inl ⟨.secondaryOk, as, d + 1, { drawn := d, cells := [] }, by decide, rfl, h⟩
  · exact .inr ⟨as, d, h⟩

/-- TS_START past its refusals gets every buffer its mode needs, and the scan starts. -/
def TsStarted (s t : State) (rounds : List AllocRound) : Prop :=
  ∃ as d fb0 fb1, .bothFail ∉ rounds ∧ rounds.length = bufferCount s.params.streamMode ∧ fb0.cells = [] ∧
    (s.params.streamMode = .single → fb1 = s.fb1) ∧
    (s.params.streamMode = .double → ∃ fb, fb1 = some fb ∧ fb.cells = []) ∧
    t = { s with
      allocAnswers := as, draws := d,
      fbPool := if rounds.getLast? = some .primaryOk then .primary else .secondary,
      fb0 := some fb0, fb1 := fb1, tr := s.tr ++ rounds.flatMap roundEvents,
      front := .zero, hcnt := 0, vcnt := 0, frameNo := 0, flipPending := false, earlierViews := [],
      tsState := .running }

/-- TS_START past its refusals finds a buffer refused by both pools, and releases what it had got. -/
def TsStartFailed (s t : State) (rounds : List AllocRound) : Prop :=
  ∃ as d pool, rounds.getLast? = some .bothFail ∧ rounds.length ≤ bufferCount s.params.streamMode ∧
    t = { s with
      allocAnswers := as, draws := d, fbPool := pool, fb0 := none, fb1 := none,
      tr := s.tr ++ rounds.flatMap roundEvents }

/-- TS_START ends in these two ways only (R185). -/
theorem tsStart_cases (s : State) : ∃ t rounds,
    (TsStarted s t rounds ∧ tsStart s = (t, none)) ∨
      (TsStartFailed s t rounds ∧ tsStart s = (t, some (.alloc .tsStart))) := by
  obtain ⟨a, as, d, fb, ha, hfb, h0⟩ | ⟨as, d, h0⟩ := allocBuffer_round .zero s
  · cases hm : s.params.streamMode with
    | single =>
      refine ⟨_, [a], .inl ⟨⟨as, d, fb, s.fb1, by simpa using ha.symm, by rw [hm]; rfl, hfb, fun _ => rfl,
        fun h => (nomatch hm.symm.trans h), rfl⟩, ?_⟩⟩
      simp only [tsStart, h0]
      simp [setBuffer, hm, startScan, roundPool]
    | double =>
      obtain ⟨a', as', d', fb', ha', hfb', h1⟩ | ⟨as', d', h1⟩ := allocBuffer_round .one (setBuffer { s with
        allocAnswers := as, draws := d, fbPool := roundPool a, tr := s.tr ++ roundEvents a } .zero fb)
      · refine ⟨_, [a, a'], .inl ⟨⟨as', d', fb, some fb', by simp [ha.symm, ha'.symm], by rw [hm]; rfl, hfb,
          fun h => (nomatch hm.symm.trans h), fun _ => ⟨fb', rfl, hfb'⟩, rfl⟩, ?_⟩⟩
        simp only [tsStart, h0]
        simp only [setBuffer] at h1 ⊢
        simp only [hm, h1, startScan]
        simp [roundPool]
      · refine ⟨_, [a, .bothFail], .inr ⟨⟨as', d', roundPool a, rfl, by rw [hm]; rfl, rfl⟩, ?_⟩⟩
        simp only [tsStart, h0]
        simp only [setBuffer] at h1 ⊢
        simp only [hm, h1, releaseBuffers]
        simp
  · refine ⟨_, [.bothFail], .inr ⟨⟨as, d, s.fbPool, rfl, ?_, rfl⟩, ?_⟩⟩
    · cases s.params.streamMode <;> decide
    · simp [tsStart, h0, releaseBuffers]

/-- Settles O31: the refusals, then the two ways TS_START can end. -/
theorem tsStartAllocatesOrFails : Obligations.TsStartAllocatesOrFails := by
  intro s
  refine ⟨exec_tsStart_not_configured, exec_tsStart_after_failure, fun hst herr => ?_⟩
  rw [exec_tsStart_accepted hst herr]
  obtain ⟨t, rounds, ⟨⟨as, d, fb0, fb1, hok, hlen, hfb0, hsingle, hdouble, rfl⟩, h⟩ |
    ⟨⟨as, d, pool, hlast, hlen, rfl⟩, h⟩⟩ := tsStart_cases s
  · rw [h]
    exact ⟨_, rounds, rfl, rfl, rfl, fun _ => ⟨hlen, rfl, rfl, rfl, rfl, rfl, rfl, rfl, rfl, rfl, ⟨fb0, rfl, hfb0⟩,
      hsingle, hdouble⟩, fun hbad => absurd hbad hok⟩
  · rw [h]
    exact ⟨_, rounds, rfl, rfl, rfl, fun hok => absurd (List.mem_of_getLast? hlast) hok,
      fun _ => ⟨hlast, hlen, rfl, hst, rfl, rfl, rfl, rfl, rfl, rfl, rfl, rfl⟩⟩

/-- A round whose first question is answered `ok` by the script. -/
theorem allocBuffer_scripted {s : State} {rest : List AllocAnswer} (k : Buffer) (h : s.allocAnswers = .ok :: rest) :
    allocBuffer k s = (placeBuffer k .primary
      { s with allocAnswers := rest, tr := s.tr ++ [.alloc .primary .ok] }, true) := by
  simp [allocBuffer, askAlloc, h, emit]

/-- The second buffer once TS_START has got what the mode needs: a fresh one in DOUBLE mode only (R185). -/
def secondBuffer (m : StreamMode) (old : Option Framebuffer) (d : Nat) : Option Framebuffer :=
  match m with
  | .single => old
  | .double => some { drawn := d, cells := [] }

/-- TS_START with every pool willing, in full. -/
theorem tsStart_willing {s : State} {rest : List AllocAnswer}
    (h : s.allocAnswers = List.replicate (bufferCount s.params.streamMode) .ok ++ rest) :
    tsStart s = ({ s with
      allocAnswers := rest, draws := s.draws + bufferCount s.params.streamMode,
      fb0 := some { drawn := s.draws, cells := [] },
      fb1 := secondBuffer s.params.streamMode s.fb1 (s.draws + 1),
      fbPool := .primary, front := .zero, hcnt := 0, vcnt := 0, frameNo := 0, flipPending := false,
      earlierViews := [], tsState := .running,
      tr := s.tr ++ List.replicate (bufferCount s.params.streamMode) (.alloc .primary .ok) }, none) := by
  cases hm : s.params.streamMode with
  | single =>
    rw [hm] at h
    simp only [tsStart, allocBuffer_scripted .zero h]
    simp [placeBuffer, setBuffer, hm, startScan, bufferCount, secondBuffer]
  | double =>
    rw [hm] at h
    have h1 := allocBuffer_scripted (s := placeBuffer .zero .primary
      { s with allocAnswers := .ok :: rest, tr := s.tr ++ [.alloc .primary .ok] }) .one rfl
    simp only [tsStart, allocBuffer_scripted .zero h]
    simp only [placeBuffer, setBuffer] at h1 ⊢
    simp [hm, h1, startScan, bufferCount, secondBuffer]

/-- Settles O32: each round's first question gets the next scripted answer. -/
theorem tsStartCompletes : Obligations.TsStartCompletes := by
  intro s rest hst herr hscript
  rw [exec_tsStart_accepted hst herr, tsStart_willing hscript]
  rfl

/-! TS_TICK. -/

theorem exec_tsTick_next {s t : State} (h : exec .tsTick s = .next t) : s.tsState = .running ∧ tsTick s = .next t := by
  by_cases hr : s.tsState = .running
  · exact ⟨hr, (exec_tsTick hr).symm.trans h⟩
  · rw [show exec .tsTick s = _ from if_neg hr] at h
    cases h

/-- The counters one pixel clock on, the totals written out (R190, R192). -/
theorem nextPosition_eq (g : Timing) (h v : Nat) : nextPosition g h v =
    (if h + 1 = g.hpw + g.hbp + 480 + g.hfp then 0 else h + 1,
      if h + 1 = g.hpw + g.hbp + 480 + g.hfp
        then (if v + 1 = g.vpw + g.vbp + 480 + g.vfp then 0 else v + 1) else v) := by
  by_cases hend : h + 1 = g.hpw + g.hbp + 480 + g.hfp
  · rw [if_pos hend, if_pos hend]
    exact if_pos hend
  · rw [if_neg hend, if_neg hend]
    exact if_neg hend

theorem activePixel_isSome (g : Timing) (h v : Nat) : (activePixel g h v).isSome =
    decide (g.hpw + g.hbp ≤ h ∧ h < g.hpw + g.hbp + 480 ∧ g.vpw + g.vbp ≤ v ∧ v < g.vpw + g.vbp + 480) := by
  by_cases hin : g.hpw + g.hbp ≤ h ∧ h < g.hpw + g.hbp + 480 ∧ g.vpw + g.vbp ≤ v ∧ v < g.vpw + g.vbp + 480
  · rw [decide_eq_true hin]
    exact congrArg Option.isSome (if_pos hin)
  · rw [decide_eq_false hin]
    exact congrArg Option.isSome (if_neg hin)

/-- Settles O33: the closed form of a tick, its levels and its counters written out. -/
theorem tickScansOnePixelClock : Obligations.TickScansOnePixelClock := by
  intro s hrun hbuf g active
  obtain ⟨t, ht⟩ := tsTick_answers hbuf
  obtain ⟨d, -, he⟩ := tsTick_eq ht
  refine ⟨d, ?_⟩
  have hpix : tickPix s d = .pix (if s.hcnt < g.hpw then g.hsyncActive else !g.hsyncActive)
      (if s.vcnt < g.vpw then g.vsyncActive else !g.vsyncActive)
      (if active then g.deActive else !g.deActive) d := by
    simp only [tickPix, hsyncLevel, vsyncLevel, deLevel, polarity, activePixel_isSome, decide_eq_true_eq, g, active]
  rw [exec_tsTick hrun, ht, he, hpix, nextPosition_eq, List.append_assoc]

theorem activePixel_inside (g : Timing) {x y : Nat} (hx : x < 480) (hy : y < 480) :
    activePixel g (g.hpw + g.hbp + x) (g.vpw + g.vbp + y) = some (x, y) := by
  have h : g.hpw + g.hbp ≤ g.hpw + g.hbp + x ∧ g.hpw + g.hbp + x < g.hpw + g.hbp + Config.hres ∧
      g.vpw + g.vbp ≤ g.vpw + g.vbp + y ∧ g.vpw + g.vbp + y < g.vpw + g.vbp + Config.vres := by
    simp only [Config.hres, Config.vres]
    omega
  rw [activePixel, if_pos h, Nat.add_sub_cancel_left, Nat.add_sub_cancel_left]

/-- What is fetched from is the present view or one kept in the window (R61). -/
theorem fetchView_mem (s : State) (fb : Framebuffer) : fetchView s fb ∈ currentView s fb :: s.earlierViews := by
  unfold fetchView
  split
  · exact List.mem_cons_self
  · rename_i v vs hv
    rw [hv]
    cases h : (currentView s fb :: v :: vs)[Config.readPoint s.draws % (vs.length + 2)]? with
    | none => exact List.mem_cons_self
    | some w => exact List.mem_of_getElem? h

/-- The pixel of a tick in the active window is fetched from a view of the front buffer in the read window. -/
theorem exec_tsTick_active {s t : State} {fb : Framebuffer} {x y : Nat} (h : exec .tsTick s = .next t)
    (hfb : bufferOf s (frontAfter s) = some fb) (ha : activePixel s.tsCfg.timing s.hcnt s.vcnt = some (x, y)) :
    ∃ v, v ∈ currentView s fb :: (if atBoundary s then [] else s.earlierViews) ∧
      t.scan = s.scan ++ (if flips s then [.flip] else []) ++
        [.pix (hsyncLevel s.tsCfg.timing s.hcnt) (vsyncLevel s.tsCfg.timing s.vcnt) s.tsCfg.timing.deActive
          (viewPixel s.draws v (pixelIndex x y))] := by
  obtain ⟨d, hd, ht⟩ := tsTick_eq (exec_tsTick_next h).2
  have hview : fetchView (frameBoundary s) fb ∈ currentView s fb :: (if atBoundary s then [] else s.earlierViews) := by
    rw [frameBoundary_eq]
    exact fetchView_mem _ fb
  have hdata : d = viewPixel s.draws (fetchView (frameBoundary s) fb) (pixelIndex x y) := by
    rw [frameBoundary_eq] at hd ⊢
    simp only [tickData, ha] at hd
    have hd' : (bufferOf s (frontAfter s)).map _ = some d := hd
    rw [hfb] at hd'
    exact (Option.some.inj hd').symm
  refine ⟨_, hview, ?_⟩
  rw [ht, ← hdata]
  simp only [tickPix, deLevel, ha]
  rfl

/-- A pixel taken from a view is one that can be (R62). -/
theorem pixelFrom_viewPixel (n : Nat) (v : FbView) (i : Nat) : pixelFrom v i (viewPixel n v i) := by
  cases v with
  | stable fb => rfl
  | racing old new =>
    have hlo : (viewPixel n (.racing old new) i).extractLsb' 0 8 =
        fbByte (if Config.racePick n false then old else new) (2 * i) := lowByte_joinBytes _ _
    have hhi : (viewPixel n (.racing old new) i).extractLsb' 8 8 =
        fbByte (if Config.racePick n true then old else new) (2 * i + 1) := highByte_joinBytes _ _
    refine ⟨?_, ?_⟩
    · rw [hlo]
      cases Config.racePick n false <;> simp
    · rw [hhi]
      cases Config.racePick n true <;> simp

/-- With no FLUSH to race, the present view of a buffer is its contents. -/
theorem currentView_of_no_race {s : State} (fb : Framebuffer) (h : s.params.streamMode = .double ∨ s.flush = none) :
    currentView s fb = .stable fb := by
  unfold currentView
  split
  · rename_i hm hf
    simp [hm, hf] at h
  · rfl

/-- Settles O34: with no earlier view the one fetched from is the buffer as it stands. -/
theorem tickReadsThePixel : Obligations.TickReadsThePixel := by
  intro s t fb x y h hfb hrace hviews hx hy hhcnt hvcnt
  have ha : activePixel s.tsCfg.timing s.hcnt s.vcnt = some (x, y) := by
    rw [hhcnt, hvcnt, activePixel_inside _ hx hy]
  obtain ⟨v, hv, ht⟩ := exec_tsTick_active h hfb ha
  have hnone : (if atBoundary s then [] else s.earlierViews) = [] := by
    obtain hb | he := hviews
    · rw [if_pos hb]
    · rw [he, ite_self]
  rw [hnone, List.mem_singleton, currentView_of_no_race fb hrace] at hv
  subst hv
  exact ⟨_, _, by rw [ht]; exact List.getLast?_concat⟩

/-- Settles O35: the view fetched from is in the window, and each byte of its pixel comes from it. -/
theorem tickReadsInsideTheWindow : Obligations.TickReadsInsideTheWindow := by
  intro s t fb x y h hfb hx hy hhcnt hvcnt
  have ha : activePixel s.tsCfg.timing s.hcnt s.vcnt = some (x, y) := by
    rw [hhcnt, hvcnt, activePixel_inside _ hx hy]
  obtain ⟨v, hv, ht⟩ := exec_tsTick_active h hfb ha
  exact ⟨v, _, _, _, hv, pixelFrom_viewPixel s.draws v (y * 480 + x), by rw [ht]; exact List.getLast?_concat⟩

end Sys2Proof.Machine
end

section
/-! PROOF. TimingStreamer (43_timing_streamer.md section 3): runs of pixel clocks, along one video frame and beyond. -/

namespace Sys2Proof.Machine

/-! Inductions over runs, packaged once. -/

/-- What holds at the start, and is carried from each tick to the next, holds after the last. -/
theorem ticks_keeps {P : Nat → State → Prop} {n : Nat} {s t : State} (h : ticks n s = .next t) (h0 : P 0 s)
    (hstep : ∀ k u v, k < n → P k u → exec .tsTick u = .next v → P (k + 1) v) : P n t := by
  induction n generalizing s P with
  | zero => cases h; exact h0
  | succ n ih =>
    cases hu : exec .tsTick s with
    | next u =>
      rw [ticks, hu] at h
      exact ih (P := fun k => P (k + 1)) h (hstep 0 s u (Nat.succ_pos n) h0 hu)
        fun k u v hk => hstep (k + 1) u v (Nat.succ_lt_succ hk)
    | fault e => rw [ticks, hu] at h; cases h
    | refused e => rw [ticks, hu] at h; cases h

/-- The same for steps of all agents. -/
theorem steps_keeps {P : State → Prop} {n : Nat} {s t : State} (h : steps n s = .next t) (h0 : P s)
    (hstep : ∀ u v, P u → step u = .next v → P v) : P t := by
  induction n generalizing s with
  | zero => cases h; exact h0
  | succ n ih =>
    cases hu : step s with
    | next u =>
      rw [steps, hu] at h
      exact ih h (hstep s u h0 hu)
    | fault e => rw [steps, hu] at h; cases h
    | refused e => rw [steps, hu] at h; cases h

theorem ticks_answers (n : Nat) {s : State} (hr : s.tsState = .running) (hb : buffersExist s) :
    ∃ t, ticks n s = .next t := by
  induction n generalizing s with
  | zero => exact ⟨s, rfl⟩
  | succ n ih =>
    obtain ⟨u, hu⟩ := tsTick_answers hb
    obtain ⟨t, ht⟩ := ih (scanStep_tick hr hu).running (tsTick_buffersExist hb hu)
    exact ⟨t, by rw [ticks_succ ((exec_tsTick hr).trans hu), ht]⟩

/-! The frame walk: position `k` is in column `k % HTOTAL` of line `k / HTOTAL % VTOTAL`. -/

/-- The scan is at position `k` of the frame walk. -/
def AtPosition (g : Timing) (k : Nat) (s : State) : Prop :=
  s.hcnt = k % htotal g ∧ s.vcnt = k / htotal g % vtotal g

theorem atPosition_zero {g : Timing} {s : State} (hh : s.hcnt = 0) (hv : s.vcnt = 0) : AtPosition g 0 s := by
  rw [AtPosition, hh, hv, Nat.zero_mod, Nat.zero_div, Nat.zero_mod]
  exact ⟨rfl, rfl⟩

/-- The walk starts a frame at every multiple of the frame's length. -/
theorem AtPosition.boundary_iff {g : Timing} {k : Nat} {s : State} (h : AtPosition g k s) :
    s.hcnt = 0 ∧ s.vcnt = 0 ↔ k % (htotal g * vtotal g) = 0 := by
  rw [h.1, h.2, Nat.mod_mul, Nat.add_eq_zero_iff, Nat.mul_eq_zero]
  have := htotal_pos g
  omega

theorem AtPosition.atBoundary_eq {g : Timing} {k : Nat} {s : State} (h : AtPosition g k s) :
    atBoundary s = decide (k % (htotal g * vtotal g) = 0) := by
  rw [← decide_eq_decide.2 h.boundary_iff, atBoundary, Bool.decide_and]
  rfl

theorem succ_divMod_of_lt {k n : Nat} (h : k % n + 1 < n) : (k + 1) / n = k / n ∧ (k + 1) % n = k % n + 1 := by
  have hk := Nat.mod_add_div k n
  exact (Nat.div_mod_unique (by omega)).2 ⟨by omega, h⟩

theorem succ_divMod_of_eq {k n : Nat} (h : k % n + 1 = n) : (k + 1) / n = k / n + 1 ∧ (k + 1) % n = 0 := by
  have hk := Nat.mod_add_div k n
  exact (Nat.div_mod_unique (by omega)).2 ⟨by rw [Nat.mul_add]; omega, by omega⟩

/-- One pixel clock is one position. -/
theorem nextPosition_walk (g : Timing) (k : Nat) :
    nextPosition g (k % htotal g) (k / htotal g % vtotal g) =
      ((k + 1) % htotal g, (k + 1) / htotal g % vtotal g) := by
  have hlt := Nat.mod_lt k (htotal_pos g)
  have hvlt := Nat.mod_lt (k / htotal g) (vtotal_pos g)
  unfold nextPosition
  by_cases hline : k % htotal g + 1 = htotal g
  · obtain ⟨hdiv, hmod⟩ := succ_divMod_of_eq hline
    rw [if_pos hline, hdiv, hmod]
    by_cases hframe : k / htotal g % vtotal g + 1 = vtotal g
    · rw [if_pos hframe, (succ_divMod_of_eq hframe).2]
    · rw [if_neg hframe, (succ_divMod_of_lt (by omega)).2]
  · obtain ⟨hdiv, hmod⟩ := succ_divMod_of_lt (k := k) (n := htotal g) (by omega)
    rw [if_neg hline, hdiv, hmod]

theorem AtPosition.tick {k : Nat} {s t : State} (hs : AtPosition s.tsCfg.timing k s) (h : tsTick s = .next t) :
    AtPosition s.tsCfg.timing (k + 1) t := by
  obtain ⟨d, -, rfl⟩ := tsTick_eq h
  simp only [AtPosition, hs.1, hs.2, nextPosition_walk, and_self]

/-- The events of the first positions of a frame, with these pixels. -/
def framePix (g : Timing) (ds : List Pixel) : List ScanEvent :=
  ds.zipIdx.map fun x => .pix (hsyncLevel g (x.2 % htotal g)) (vsyncLevel g (x.2 / htotal g % vtotal g))
    (deLevel g (x.2 % htotal g) (x.2 / htotal g % vtotal g)) x.1

@[simp] theorem length_framePix (g : Timing) (ds : List Pixel) : (framePix g ds).length = ds.length := by
  simp [framePix]

theorem AtPosition.tickPix_eq {k : Nat} {s : State} (h : AtPosition s.tsCfg.timing k s) (d : Pixel) :
    tickPix s d = .pix (hsyncLevel s.tsCfg.timing (k % htotal s.tsCfg.timing))
      (vsyncLevel s.tsCfg.timing (k / htotal s.tsCfg.timing % vtotal s.tsCfg.timing))
      (deLevel s.tsCfg.timing (k % htotal s.tsCfg.timing) (k / htotal s.tsCfg.timing % vtotal s.tsCfg.timing)) d := by
  rw [← h.1, ← h.2]
  rfl

/-- The tick at the position after these pixels adds the next. -/
theorem framePix_concat {s : State} {ds : List Pixel} (h : AtPosition s.tsCfg.timing ds.length s) (d : Pixel) :
    framePix s.tsCfg.timing ds ++ [tickPix s d] = framePix s.tsCfg.timing (ds ++ [d]) := by
  rw [h.tickPix_eq, framePix, framePix, List.zipIdx_append, List.map_append, Nat.zero_add]
  rfl

theorem flip_notMem_framePix (g : Timing) (ds : List Pixel) : .flip ∉ framePix g ds := by
  simp [framePix]

theorem pixOnly_append (es fs : List ScanEvent) : pixOnly (es ++ fs) = pixOnly es ++ pixOnly fs :=
  List.filter_append ..

/-! Counting the levels of a frame (R200). -/

theorem polarity_beq (active : Level) (c : Bool) : (polarity active c == active) = c := by
  cases active <;> cases c <;> rfl

/-- A count of events that does not look at the pixels is a count of positions. -/
theorem countP_framePix {g : Timing} {ds : List Pixel} {f : ScanEvent → Bool} {p q : Nat → Bool}
    (hlen : ds.length = htotal g * vtotal g)
    (hf : ∀ h v d, v < vtotal g → f (.pix (hsyncLevel g h) (vsyncLevel g v) (deLevel g h v) d) = (p h && q v)) :
    (framePix g ds).countP f = (List.range (htotal g)).countP p * (List.range (vtotal g)).countP q := by
  have hpix : (f ∘ fun x : Pixel × Nat => .pix (hsyncLevel g (x.2 % htotal g))
      (vsyncLevel g (x.2 / htotal g % vtotal g)) (deLevel g (x.2 % htotal g) (x.2 / htotal g % vtotal g)) x.1) =
      (fun k => p (k % htotal g) && q (k / htotal g % vtotal g)) ∘ Prod.snd :=
    funext fun x => hf _ _ _ (Nat.mod_lt _ (vtotal_pos g))
  rw [framePix, List.countP_map, hpix, ← List.countP_map, List.zipIdx_map_snd, hlen, ← List.range_eq_range',
    ← countP_columns _ _ _ _ (htotal_pos g)]
  refine List.countP_congr fun k hk => ?_
  rw [Nat.mod_eq_of_lt (Nat.div_lt_of_lt_mul (List.mem_range.1 hk))]

theorem countP_range_lt {m n : Nat} (h : m ≤ n) : (List.range n).countP (fun i => decide (i < m)) = m := by
  simpa using countP_range 0 m n h

theorem countP_range_true (n : Nat) : (List.range n).countP (fun _ => true) = n := by
  rw [List.countP_true, List.length_range]

/-- R200's counts, of a whole frame whatever its pixels. -/
theorem framePix_counts {g : Timing} {ds : List Pixel} (hlen : ds.length = htotal g * vtotal g) :
    .flip ∉ framePix g ds ∧ (framePix g ds).length = htotal g * vtotal g ∧
      (framePix g ds).countP (deIs g.deActive) = 480 * 480 ∧
      (framePix g ds).countP (hsIs g.hsyncActive) = g.hpw * vtotal g ∧
      (framePix g ds).countP (vsIs g.vsyncActive) = g.vpw * htotal g := by
  refine ⟨flip_notMem_framePix g ds, by rw [length_framePix, hlen], ?_, ?_, ?_⟩
  · rw [countP_framePix (p := fun h => decide (g.hpw + g.hbp ≤ h ∧ h < g.hpw + g.hbp + 480))
      (q := fun v => decide (g.vpw + g.vbp ≤ v ∧ v < g.vpw + g.vbp + 480)) hlen fun h v d _ => ?_,
      countP_range _ _ _ (by simp only [htotal, Config.hres]; omega),
      countP_range _ _ _ (by simp only [vtotal, Config.vres]; omega), Nat.add_sub_cancel_left, Nat.add_sub_cancel_left]
    rw [deIs, deLevel, polarity_beq, activePixel_isSome, ← Bool.decide_and]
    simp only [and_assoc]
  · rw [countP_framePix (p := fun h => decide (h < g.hpw)) (q := fun _ => true) hlen fun h v d _ => ?_,
      countP_range_lt (by simp only [htotal]; omega), countP_range_true]
    rw [hsIs, hsyncLevel, polarity_beq, Bool.and_true]
  · rw [countP_framePix (p := fun _ => true) (q := fun v => decide (v < g.vpw)) hlen fun h v d _ => ?_,
      countP_range_true, countP_range_lt (by simp only [vtotal]; omega), Nat.mul_comm]
    rw [vsIs, vsyncLevel, polarity_beq, Bool.true_and]

/-! What any run from the start of a frame has put on the bus. -/

/-- From `s`, at the start of a frame, to `t` there were `k` pixel clocks; while they were no more than a frame's, the
scan trace grew by their events, with at most one Flip, at the head. -/
structure ScanRun (s : State) (k : Nat) (t : State) : Prop where
  running : t.tsState = .running
  tsCfg : t.tsCfg = s.tsCfg
  position : AtPosition s.tsCfg.timing k t
  scan : ∃ es, t.scan = s.scan ++ es ∧ (pixOnly es).length = k ∧
    (k ≤ htotal s.tsCfg.timing * vtotal s.tsCfg.timing → ∃ fl ds, es = fl ++ framePix s.tsCfg.timing ds ∧
      ds.length = k ∧ (fl = [] ∨ fl = [.flip]) ∧ (k = 0 → fl = []))

theorem ScanRun.start {s : State} (hr : s.tsState = .running) (hh : s.hcnt = 0) (hv : s.vcnt = 0) : ScanRun s 0 s :=
  ⟨hr, rfl, atPosition_zero hh hv, [], (List.append_nil _).symm, rfl, fun _ =>
    ⟨[], [], rfl, rfl, .inl rfl, fun _ => rfl⟩⟩

/-- A pixel clock goes on with the run. -/
theorem ScanRun.pixel {s t u : State} {k : Nat} (h : ScanRun s k t) (hr : u.tsState = .running)
    (hcfg : u.tsCfg = t.tsCfg) {fl : List ScanEvent} {d : Pixel}
    (hfl : fl = [] ∨ (fl = [.flip] ∧ t.hcnt = 0 ∧ t.vcnt = 0)) (hscan : u.scan = t.scan ++ fl ++ [tickPix t d])
    (hh : u.hcnt = (nextPosition t.tsCfg.timing t.hcnt t.vcnt).1)
    (hv : u.vcnt = (nextPosition t.tsCfg.timing t.hcnt t.vcnt).2) : ScanRun s (k + 1) u := by
  obtain ⟨-, hcfg', hpos, es, hold, hcount, hes⟩ := h
  have hflip : fl = [] ∨ fl = [.flip] ∧ k % (htotal s.tsCfg.timing * vtotal s.tsCfg.timing) = 0 :=
    hfl.imp_right fun ⟨h, hb⟩ => ⟨h, hpos.boundary_iff.1 hb⟩
  refine ⟨hr, hcfg.trans hcfg', ?_, es ++ (fl ++ [tickPix t d]), ?_, ?_, fun hk => ?_⟩
  · rw [AtPosition, hh, hv, hpos.1, hpos.2, hcfg', nextPosition_walk]
    exact ⟨rfl, rfl⟩
  · rw [hscan, hold, List.append_assoc, List.append_assoc]
  · rw [pixOnly_append, pixOnly_append, List.length_append, hcount]
    obtain rfl | ⟨rfl, -⟩ := hflip <;> rfl
  · obtain ⟨fl', ds, rfl, hlen, hfl', hfirst⟩ := hes (by omega)
    rw [← hcfg', ← hlen] at hpos
    rw [← hcfg'] at hk hflip ⊢
    obtain rfl | ⟨rfl, hb⟩ := hflip
    · refine ⟨fl', ds ++ [d], ?_, by simp [hlen], hfl', fun h => (nomatch h)⟩
      rw [List.nil_append, List.append_assoc, framePix_concat hpos]
    · rw [Nat.mod_eq_of_lt (by omega)] at hb
      obtain rfl := hfirst hb
      obtain rfl : ds = [] := List.eq_nil_of_length_eq_zero (hlen.trans hb)
      refine ⟨[.flip], [d], ?_, by simp [hb], .inr rfl, fun h => (nomatch h)⟩
      rw [← List.nil_append [d], ← framePix_concat hpos]
      rfl

/-- One step of whichever agent goes on with the run: it is one more pixel clock, or none. -/
theorem ScanRun.step {s t u : State} {k : Nat} (h : ScanRun s k t) (hu : ScanStep t u) : ∃ m, ScanRun s m u := by
  obtain ⟨-, hr, hcfg, ⟨hscan, hh, hv⟩ | ⟨fl, d, hfl, hscan, hh, hv⟩⟩ := hu
  · obtain ⟨-, hcfg', hpos, hes⟩ := h
    exact ⟨k, hr, hcfg.trans hcfg', ⟨hh.trans hpos.1, hv.trans hpos.2⟩, by rwa [hscan]⟩
  · exact ⟨k + 1, h.pixel hr hcfg hfl hscan hh hv⟩

/-- A tick is one more pixel clock. -/
theorem ScanRun.tick {s t u : State} {k : Nat} (h : ScanRun s k t) (hu : tsTick t = .next u) : ScanRun s (k + 1) u := by
  obtain ⟨-, hr, hcfg, ⟨hscan, -⟩ | ⟨fl, d, hfl, hscan, hh, hv⟩⟩ := scanStep_tick h.running hu
  · obtain ⟨d, -, rfl⟩ := tsTick_eq hu
    simp at hscan
  · exact h.pixel hr hcfg hfl hscan hh hv

theorem ScanRun.length_pixOnly {s t : State} {k : Nat} (h : ScanRun s k t) : (pixOnly (newScan s t)).length = k := by
  obtain ⟨es, hscan, hcount, -⟩ := h.scan
  rw [newScan, hscan, List.drop_left, hcount]

theorem scanRun_ticks {n : Nat} {s t : State} (hr : s.tsState = .running) (hh : s.hcnt = 0) (hv : s.vcnt = 0)
    (h : ticks n s = .next t) : ScanRun s n t :=
  ticks_keeps h (ScanRun.start hr hh hv) fun _ _ _ _ hu hv => hu.tick (exec_tsTick_next hv).2

theorem scanRun_steps {n : Nat} {s t : State} (hr : s.tsState = .running) (hh : s.hcnt = 0) (hv : s.vcnt = 0)
    (h : steps n s = .next t) : ∃ k, ScanRun s k t :=
  steps_keeps (P := fun u => ∃ k, ScanRun s k u) h ⟨0, ScanRun.start hr hh hv⟩
    fun _ _ ⟨_, hu⟩ hv => hu.step (step_scanStep hu.running hv)

/-- The whole frame's events, once it is over. -/
theorem ScanRun.frame {s t : State} (h : ScanRun s (htotal s.tsCfg.timing * vtotal s.tsCfg.timing) t) :
    ∃ fl ds, (fl = [] ∨ fl = [.flip]) ∧ newScan s t = fl ++ framePix s.tsCfg.timing ds ∧
      ds.length = htotal s.tsCfg.timing * vtotal s.tsCfg.timing := by
  obtain ⟨es, hscan, -, hes⟩ := h.scan
  obtain ⟨fl, ds, rfl, hlen, hfl, -⟩ := hes (Nat.le_refl _)
  exact ⟨fl, ds, hfl, by rw [newScan, hscan, List.drop_left], hlen⟩

/-! Ticks alone: what else they change. -/

/-- `k` ticks in a row, from the start of a frame, have changed the scan and what goes with it only. -/
structure TickRun (s : State) (k : Nat) (t : State) : Prop where
  position : AtPosition s.tsCfg.timing k t
  tsCfg : t.tsCfg = s.tsCfg
  fb0 : t.fb0 = s.fb0
  fb1 : t.fb1 = s.fb1
  tr : t.tr = s.tr
  frameNo : t.frameNo = s.frameNo + (k + htotal s.tsCfg.timing * vtotal s.tsCfg.timing - 1) /
    (htotal s.tsCfg.timing * vtotal s.tsCfg.timing)

/-- Frames begun by the first `k + 1` clocks: one more than by the first `k` where clock `k` is on a boundary. -/
theorem framesBegun_succ {n : Nat} (h : 0 < n) (k : Nat) :
    (k + 1 + n - 1) / n = (k + n - 1) / n + if k % n = 0 then 1 else 0 := by
  have hk := Nat.mod_add_div k n
  have hlt := Nat.mod_lt k h
  rw [show k + 1 + n - 1 = k + n by omega, Nat.add_div_right _ h]
  split
  · have hprev : (k + n - 1) / n = k / n ∧ (k + n - 1) % n = n - 1 :=
      (Nat.div_mod_unique h).2 ⟨by omega, by omega⟩
    rw [hprev.1]
  · have hprev : (k + n - 1) / n = k / n + 1 ∧ (k + n - 1) % n = k % n - 1 :=
      (Nat.div_mod_unique h).2 ⟨by rw [Nat.mul_add]; omega, by omega⟩
    rw [hprev.1]

theorem tickRun_ticks {n : Nat} {s t : State} (hh : s.hcnt = 0) (hv : s.vcnt = 0) (h : ticks n s = .next t) :
    TickRun s n t := by
  have hpos : 0 < htotal s.tsCfg.timing * vtotal s.tsCfg.timing := Nat.mul_pos (htotal_pos _) (vtotal_pos _)
  refine ticks_keeps h ⟨atPosition_zero hh hv, rfl, rfl, rfl, rfl, ?_⟩ fun k u v _ hu hv => ?_
  · rw [Nat.zero_add, Nat.div_eq_of_lt (by omega), Nat.add_zero]
  · have hpos' := hu.tsCfg ▸ AtPosition.tick (hu.tsCfg ▸ hu.position) (exec_tsTick_next hv).2
    obtain ⟨d, -, rfl⟩ := tsTick_eq (exec_tsTick_next hv).2
    refine ⟨hpos', hu.tsCfg, hu.fb0, hu.fb1, hu.tr, ?_⟩
    · show (if atBoundary u then u.frameNo + 1 else u.frameNo) = _
      rw [framesBegun_succ hpos, hu.position.atBoundary_eq, hu.frameNo]
      simp only [decide_eq_true_eq]
      split <;> rfl

/-- Settles O36: position and frame count by induction over the ticks. -/
theorem scanPositionAfterTicks : Obligations.ScanPositionAfterTicks := by
  intro s n hr hb hh hv
  obtain ⟨t, ht⟩ := ticks_answers n hr hb
  have hscan := scanRun_ticks hr hh hv ht
  have hrun := tickRun_ticks hh hv ht
  obtain ⟨es, hes, -⟩ := hscan.scan
  exact ⟨t, ht, hrun.position.1, hrun.position.2, hrun.frameNo, hscan.length_pixOnly,
    by rw [hes]; exact List.prefix_append _ _,
    hrun.fb0, hrun.fb1, hrun.tr, hscan.running⟩

/-- The first of a row of ticks flips or not; the others only append. -/
theorem newScan_ticks_head {n : Nat} {s t : State} (h : ticks (n + 1) s = .next t) :
    ∃ d es, newScan s t = (if flips s then [.flip] else []) ++ tickPix s d :: es := by
  cases hu : exec .tsTick s with
  | fault e => rw [ticks, hu] at h; cases h
  | refused e => rw [ticks, hu] at h; cases h
  | next u =>
    rw [ticks_succ hu] at h
    obtain ⟨d, -, rfl⟩ := tsTick_eq (exec_tsTick_next hu).2
    have hgrow : s.scan ++ (if flips s then [.flip] else []) ++ [tickPix s d] <+: t.scan := by
      refine ticks_keeps (P := fun _ v => _ <+: v.scan) h (List.prefix_refl _) fun _ v w _ hv hw => ?_
      obtain ⟨e, -, rfl⟩ := tsTick_eq (exec_tsTick_next hw).2
      rw [List.append_assoc v.scan]
      exact hv.trans (List.prefix_append _ _)
    obtain ⟨es, hes⟩ := hgrow
    refine ⟨d, es, ?_⟩
    rw [newScan, ← hes, List.append_assoc, List.append_assoc, List.drop_left]
    rfl

/-- Settles O37: a whole frame of the walk, counted; the Flip is the first tick's. -/
theorem videoFrameHasItsCounts : Obligations.VideoFrameHasItsCounts := by
  intro s hr hh hv g frame
  refine ⟨fun hb => ?_, fun n t ht hcount => ?_⟩
  · obtain ⟨t, ht⟩ := ticks_answers (htotal g * vtotal g) hr hb
    obtain ⟨fl, ds, hfl, hscan, hlen⟩ := (scanRun_ticks hr hh hv ht).frame
    refine ⟨t, framePix g ds, ht, ?_, framePix_counts hlen⟩
    have hpos : 0 < htotal g * vtotal g := Nat.mul_pos (htotal_pos g) (vtotal_pos g)
    rw [← Nat.succ_pred_eq_of_pos hpos] at ht
    obtain ⟨d, es, hhead⟩ := newScan_ticks_head ht
    rw [hscan]
    congr 1
    have hboth := hscan.symm.trans hhead
    have hflip := congrArg (fun es => es.head? = some .flip) hboth
    obtain ⟨d', ds', rfl⟩ := List.exists_cons_of_length_pos (hlen ▸ hpos)
    obtain rfl | rfl := hfl <;> cases hf : flips s <;>
      simp [hf, framePix, tickPix] at hflip ⊢
  · obtain ⟨k, hrun⟩ := scanRun_steps hr hh hv ht
    obtain rfl := hrun.length_pixOnly.symm.trans hcount
    obtain ⟨fl, ds, hfl, hscan, hlen⟩ := hrun.frame
    refine ⟨framePix g ds, ?_, framePix_counts hlen⟩
    obtain rfl | rfl := hfl
    · exact .inl hscan
    · exact .inr hscan

/-! A buffer of one colour (R232(b)). -/

/-- Every event with data-enable carries the colour. -/
def carries (g : Timing) (colour : Pixel) (es : List ScanEvent) : Prop :=
  es.all (fun e => !deIs g.deActive e || dataIs colour e) = true

theorem carries_append {g : Timing} {colour : Pixel} {es fs : List ScanEvent} :
    carries g colour (es ++ fs) ↔ carries g colour es ∧ carries g colour fs := by
  simp only [carries, List.all_append, Bool.and_eq_true]

/-- After `k` ticks of a frame the Streamer still reads the buffer it read first, which nothing races. -/
structure SolidRun (s : State) (fb : Framebuffer) (colour : Pixel) (k : Nat) (t : State) : Prop where
  position : AtPosition s.tsCfg.timing k t
  tsCfg : t.tsCfg = s.tsCfg
  idle : t.flush = none
  views : atBoundary t = true ∨ t.earlierViews = []
  front : k < htotal s.tsCfg.timing * vtotal s.tsCfg.timing → bufferOf t (frontAfter t) = some fb
  scan : ∃ es, t.scan = s.scan ++ es ∧ carries s.tsCfg.timing colour es

/-- A tick with nothing to race carries the colour of a buffer of one colour. -/
theorem carries_tick {s t : State} {fb : Framebuffer} {colour : Pixel} (h : exec .tsTick s = .next t)
    (hfb : bufferOf s (frontAfter s) = some fb) (hidle : s.flush = none)
    (hviews : atBoundary s = true ∨ s.earlierViews = []) (hsolid : ∀ k, k < Config.fbPixels → fbPixel fb k = colour) :
    ∃ es, t.scan = s.scan ++ es ∧ carries s.tsCfg.timing colour es := by
  have hflip : carries s.tsCfg.timing colour (if flips s then [.flip] else []) := by
    split <;> rfl
  cases ha : activePixel s.tsCfg.timing s.hcnt s.vcnt with
  | none =>
    obtain ⟨d, -, rfl⟩ := tsTick_eq (exec_tsTick_next h).2
    refine ⟨_, List.append_assoc _ _ _, carries_append.2 ⟨hflip, ?_⟩⟩
    simp [carries, tickPix, deLevel, ha, deIs, polarity]
  | some p =>
    obtain ⟨x, y⟩ := p
    obtain ⟨v, hv, hscan⟩ := exec_tsTick_active h hfb ha
    have hnone : (if atBoundary s then [] else s.earlierViews) = [] := by
      obtain hb | he := hviews
      · rw [if_pos hb]
      · rw [he, ite_self]
    rw [hnone, List.mem_singleton, currentView_of_no_race fb (.inr hidle)] at hv
    subst hv
    refine ⟨_, hscan.trans (List.append_assoc _ _ _), carries_append.2 ⟨hflip, ?_⟩⟩
    have hin : pixelIndex x y < Config.fbPixels := by
      unfold activePixel at ha
      split at ha
      · cases ha
        simp only [pixelIndex, Config.fbPixels, Config.hres, Config.vres] at *
        omega
      · cases ha
    simp [carries, dataIs, viewPixel, hsolid _ hin]

theorem solidRun_ticks {n : Nat} {s t : State} {fb : Framebuffer} {colour : Pixel} (hh : s.hcnt = 0) (hv : s.vcnt = 0)
    (hidle : s.flush = none) (hn : n ≤ htotal s.tsCfg.timing * vtotal s.tsCfg.timing)
    (hfb : bufferOf s (frontAfter s) = some fb) (hsolid : ∀ k, k < Config.fbPixels → fbPixel fb k = colour)
    (h : ticks n s = .next t) : SolidRun s fb colour n t := by
  have hboundary : atBoundary s = true := by simp [atBoundary, hh, hv]
  refine ticks_keeps h ⟨atPosition_zero hh hv, rfl, hidle, .inl hboundary, fun _ => hfb, [],
    (List.append_nil _).symm, rfl⟩ fun k u v hk hu hv => ?_
  obtain ⟨es, hes, hcarry⟩ := hu.scan
  have hfront := hu.front (by omega)
  obtain ⟨fs, hfs, hcarry'⟩ := carries_tick hv hfront hu.idle hu.views hsolid
  have hpos : AtPosition s.tsCfg.timing (k + 1) v :=
    hu.tsCfg ▸ AtPosition.tick (hu.tsCfg ▸ hu.position) (exec_tsTick_next hv).2
  rw [hu.tsCfg] at hcarry'
  obtain ⟨d, -, he⟩ := tsTick_eq (exec_tsTick_next hv).2
  refine ⟨hpos, by rw [he]; exact hu.tsCfg, by rw [he]; exact hu.idle, .inr ?_, fun hk => ?_, es ++ fs, ?_,
    carries_append.2 ⟨hcarry, hcarry'⟩⟩
  · rw [he]
    obtain hb | hnone := hu.views
    · exact if_pos hb
    · exact (congrArg _ hnone).trans (ite_self _)
  · have hinside : atBoundary v = false := by
      rw [hpos.atBoundary_eq, Nat.mod_eq_of_lt hk]
      rfl
    rw [frontAfter, flips, hinside, Bool.false_and, Bool.false_and, if_neg Bool.false_ne_true, he]
    exact hfront
  · rw [hfs, hes, List.append_assoc]

/-- Settles O38: no step of the frame changes what its ticks read. -/
theorem solidColourReachesTheBus : Obligations.SolidColourReachesTheBus := by
  intro s t fb colour n hr hh hv hidle hn hfb hsolid h
  obtain ⟨es, hes, hcarry⟩ := (solidRun_ticks hh hv hidle hn hfb hsolid h).scan
  rw [newScan, hes, List.drop_left]
  exact hcarry

end Sys2Proof.Machine
end

section
/-! PROOF. PanelProgrammer (42_panel_programmer.md R176): two runs of PROG_RUN side by side. -/

namespace Sys2Proof.Machine

/-- Two states in which PROG_RUN cannot tell apart what it reads. -/
structure SameLink (s s' : State) : Prop where
  params : s'.params = s.params
  expInitialized : s'.expInitialized = s.expInitialized
  expMirror : s'.expMirror = s.expMirror
  expHwOut : s'.expHwOut = s.expHwOut
  clk : s'.clk = s.clk
  sda : s'.sda = s.sda
  acks : s'.acks = s.acks
  draws : s'.draws = s.draws
  ppIndex : s'.ppIndex = s.ppIndex
  ppState : s'.ppState = s.ppState
  ppDone : s'.ppDone = s.ppDone

/-- An operation that takes two such states to two such states, by the same events. -/
def Lockstep (f : State → State) : Prop :=
  ∀ s s', SameLink s s' → SameLink (f s) (f s') ∧ ∃ es, (f s).tr = s.tr ++ es ∧ (f s').tr = s'.tr ++ es

theorem Lockstep.comp {f g : State → State} (hg : Lockstep g) (hf : Lockstep f) : Lockstep fun s => g (f s) := by
  intro s s' h
  obtain ⟨hmid, es, hes, hes'⟩ := hf s s' h
  obtain ⟨hend, gs, hgs, hgs'⟩ := hg _ _ hmid
  exact ⟨hend, es ++ gs, by rw [hgs, hes, List.append_assoc], by rw [hgs', hes', List.append_assoc]⟩

theorem SameLink.ackAt {s s' : State} (h : SameLink s s') (k : Nat) : ackAt s' k = ackAt s k :=
  ackAt_congr h.acks h.draws k

theorem SameLink.afterBusAcks {s s' : State} (h : SameLink s s') (n : Nat) :
    SameLink (afterBusAcks n s) (afterBusAcks n s') := by
  obtain ⟨hp, hi, hm, ho, hc, ha, hk, hd, hx, hs, hn⟩ := h
  unfold Machine.afterBusAcks
  rw [hi]
  split
  · exact ⟨hp, hi, hm, ho, hc, ha, by simp [afterAcks, hk], by simp [afterAcks, hk, hd], hx, hs, hn⟩
  · exact ⟨hp, hi, hm, ho, hc, ha, hk, hd, hx, hs, hn⟩

theorem lockstep_xfer (m : Level) (b : Byte) : Lockstep (xfer m b) := by
  intro s s' h
  have hacks := h.afterBusAcks 2
  rw [xfer_eq, xfer_eq]
  refine ⟨⟨hacks.params, hacks.expInitialized, ?_, ?_, rfl, rfl, hacks.acks, hacks.draws, hacks.ppIndex,
    hacks.ppState, hacks.ppDone⟩, _, rfl, ?_⟩
  · simp only [mirrorAfterXfer, h.expInitialized, h.expMirror, h.params]
  · simp only [outAfterXfer, h.expInitialized, h.expMirror, h.params, h.expHwOut, h.ackAt]
  · simp only [h.params, h.expInitialized, h.expMirror, h.ackAt]

theorem lockstep_panelReset : Lockstep panelReset := by
  intro s s' h
  have hacks := h.afterBusAcks 2
  rw [panelReset_eq, panelReset_eq]
  refine ⟨⟨hacks.params, hacks.expInitialized, ?_, ?_, hacks.clk, hacks.sda, hacks.acks, hacks.draws, hacks.ppIndex,
    hacks.ppState, hacks.ppDone⟩, _, rfl, ?_⟩
  · simp only [h.expInitialized, h.expMirror, h.params]
  · simp only [h.expInitialized, h.expMirror, h.params, h.expHwOut, h.ackAt]
  · simp only [h.params, h.expInitialized, h.expMirror, h.ackAt]

theorem lockstep_delayMs (n : Nat) : Lockstep (delayMs n) := fun _ _ h =>
  ⟨⟨h.params, h.expInitialized, h.expMirror, h.expHwOut, h.clk, h.sda, h.acks, h.draws, h.ppIndex, h.ppState,
    h.ppDone⟩, _, rfl, rfl⟩

theorem lockstep_sendFrames (fs : List (Level × Byte)) : Lockstep (sendFrames fs) := by
  induction fs with
  | nil => exact fun _ _ h => ⟨h, [], (List.append_nil _).symm, (List.append_nil _).symm⟩
  | cons f fs ih => exact ih.comp (lockstep_xfer f.1 f.2)

theorem lockstep_replayEntry (e : RegisterOp) : Lockstep (replayEntry e) := by
  cases e with
  | delay ms => exact lockstep_delayMs ms
  | write op c ps => exact (funext fun s => replayEntry_write op c ps s) ▸ lockstep_sendFrames _

theorem lockstep_advanceIndex : Lockstep advanceIndex := fun s s' h =>
  ⟨⟨h.params, h.expInitialized, h.expMirror, h.expHwOut, h.clk, h.sda, h.acks, h.draws,
    by rw [advanceIndex_ppIndex, advanceIndex_ppIndex, h.ppIndex],
    by rw [advanceIndex_ppState, advanceIndex_ppState, h.ppIndex, h.ppState, h.params], h.ppDone⟩,
    [], (List.append_nil _).symm, (List.append_nil _).symm⟩

theorem lockstep_replayTable (es : List RegisterOp) : Lockstep (replayTable es) := by
  induction es with
  | nil => exact fun _ _ h => ⟨h, [], (List.append_nil _).symm, (List.append_nil _).symm⟩
  | cons e es ih => exact ih.comp (lockstep_advanceIndex.comp (lockstep_replayEntry e))

/-- PROG_RUN is the reset pulse and the replay of the table, between two writes of the programmer's own state. -/
theorem progRun_unfold (s : State) :
    progRun s = { replayTable s.params.table (panelReset (progRunStart s)) with ppDone := true } := by
  have hp : (panelReset (progRunStart s)).params = s.params := (sends_panelReset (progRunStart s)).params
  rw [progRun, ← progRunStart, hp]

/-- Settles O28: PROG_RUN is made of operations that keep two runs in step. -/
theorem progRunDependsOnlyOnMirrorAndAnswers : Obligations.ProgRunDependsOnlyOnMirrorAndAnswers := by
  intro s s' t t' hp hi hm ho hc ha hk hd h h'
  obtain ⟨-, rfl⟩ := whenLinked_next.1 h
  obtain ⟨-, rfl⟩ := whenLinked_next.1 h'
  have hstart : SameLink (progRunStart s) (progRunStart s') := ⟨hp, hi, hm, ho, hc, ha, hk, hd, rfl, rfl, rfl⟩
  obtain ⟨hend, es, hes, hes'⟩ := ((lockstep_replayTable s.params.table).comp lockstep_panelReset) _ _ hstart
  rw [progRun_unfold, progRun_unfold, hp]
  refine ⟨?_, hend.expMirror, hend.expHwOut, hend.clk, hend.sda, hend.ppIndex, hend.ppState, rfl⟩
  simp only [newEvents, returned_tr, hes, hes']
  exact (List.drop_left (l₁ := s'.tr)).trans (List.drop_left (l₁ := s.tr)).symm

end Sys2Proof.Machine
end

section
/-! PROOF. What the panel receives (41_bitbang_link.md R152, R153, R177): the receiver's pass over the events of
frames. -/

namespace Sys2Proof.Machine

/-! The receiver's chip and clock are what the trace makes of them. -/

theorem receiverBus_out (p : Params) (r : Receiver) (o d : Word16) : (receiverBus p r o d).out = o := by
  unfold receiverBus
  dsimp only
  split <;> rfl

theorem receiverBus_dir (p : Params) (r : Receiver) (o d : Word16) : (receiverBus p r o d).dir = d := by
  unfold receiverBus
  dsimp only
  split <;> rfl

theorem receiverBus_clk (p : Params) (r : Receiver) (o d : Word16) : (receiverBus p r o d).clk = r.clk := by
  unfold receiverBus
  dsimp only
  split <;> rfl

/-- An acknowledged write at the expander's address, register by register (R112). -/
theorem receive_i2cWrite (p : Params) (r : Receiver) (reg lo hi : Byte) :
    receive p r (.i2cWrite p.expAddr reg lo hi .ok) =
      if reg = Config.expRegOut then receiverBus p r (joinBytes hi lo) r.dir
      else if reg = Config.expRegDir then receiverBus p r r.out (joinBytes hi lo) else r := if_pos rfl

/-- The level of a latch. -/
def padLevel : Pad → Option Level
  | .unconfigured => none
  | .driven b => some b

/-- What one event does to the receiver's view of the chip and of the clock. -/
theorem receive_follows (p : Params) (r : Receiver) (e : Event) :
    (receive p r e).out = chipRegAfter p 0x02 r.out [e] ∧ (receive p r e).dir = chipRegAfter p 0x06 r.dir [e] ∧
      ∀ q, r.clk = padLevel q → (receive p r e).clk = padLevel (padAfter .clk q [e]) := by
  cases e with
  | i2cWrite a reg lo hi k =>
    cases k with
    | nack => exact ⟨rfl, rfl, fun _ h => h⟩
    | ok =>
      by_cases ha : a = p.expAddr
      · subst ha
        rw [receive_i2cWrite]
        by_cases ho : reg = Config.expRegOut
        · subst ho
          rw [if_pos rfl, receiverBus_out, receiverBus_dir, receiverBus_clk]
          exact ⟨(if_pos ⟨rfl, rfl⟩).symm, (if_neg fun h => absurd h.2 (by decide)).symm, fun _ h => h⟩
        · rw [if_neg ho]
          by_cases hd : reg = Config.expRegDir
          · subst hd
            rw [if_pos rfl, receiverBus_out, receiverBus_dir, receiverBus_clk]
            exact ⟨(if_neg fun h => absurd h.2 (by decide)).symm, (if_pos ⟨rfl, rfl⟩).symm, fun _ h => h⟩
          · rw [if_neg hd]
            exact ⟨(if_neg fun h => ho h.2).symm, (if_neg fun h => hd h.2).symm, fun _ h => h⟩
      · rw [show receive p r (.i2cWrite a reg lo hi .ok) = r from if_neg ha]
        exact ⟨(if_neg fun h => ha h.1).symm, (if_neg fun h => ha h.1).symm, fun _ h => h⟩
  | line l b =>
    cases l with
    | sda => exact ⟨rfl, rfl, fun _ h => h⟩
    | bl => exact ⟨rfl, rfl, fun _ h => h⟩
    | clk =>
      cases b with
      | false => exact ⟨rfl, rfl, fun _ _ => rfl⟩
      | true =>
        rw [receive]
        split <;> exact ⟨rfl, rfl, fun _ _ => rfl⟩
  | _ => exact ⟨rfl, rfl, fun _ h => h⟩

theorem receiver_follows (p : Params) (es : List Event) (r : Receiver) (q : Pad) (hq : r.clk = padLevel q) :
    (es.foldl (receive p) r).out = chipRegAfter p 0x02 r.out es ∧
      (es.foldl (receive p) r).dir = chipRegAfter p 0x06 r.dir es ∧
      (es.foldl (receive p) r).clk = padLevel (padAfter .clk q es) := by
  induction es generalizing r q with
  | nil => exact ⟨rfl, rfl, hq⟩
  | cons e es ih =>
    obtain ⟨hout, hdir, hclk⟩ := receive_follows p r e
    have h := ih (receive p r e) _ (hclk q hq)
    rw [hout, hdir] at h
    exact h

/-! One chip-select cycle. -/

/-- The receiver between frames: the clock low, chip-select driven, and high or with nothing clocked in yet. -/
structure Between (p : Params) (r : Receiver) : Prop where
  clk : r.clk = some false
  driven : r.dir.getLsbD p.csBit.val = false
  fresh : r.out.getLsbD p.csBit.val = true ∨ r.acc = []

theorem receiverCs_driven {p : Params} {r : Receiver} (h : r.dir.getLsbD p.csBit.val = false) :
    receiverCs p r = some (r.out.getLsbD p.csBit.val) := by
  rw [receiverCs, expanderLine, h]
  rfl

/-- A write to the output register, chip-select driven: a fall of chip-select empties the accumulator, a rise delivers
it (R152). -/
theorem receive_outWrite {p : Params} {r : Receiver} (hd : r.dir.getLsbD p.csBit.val = false) (w : Word16) :
    receive p r (outWrite p w .ok) = { r with
      out := w,
      acc := if r.out.getLsbD p.csBit.val && !w.getLsbD p.csBit.val then [] else r.acc,
      frames := if !r.out.getLsbD p.csBit.val && w.getLsbD p.csBit.val then r.frames ++ [delivered r.acc]
        else r.frames } := by
  have hwrite : receive p r (outWrite p w .ok) = receiverBus p r w r.dir :=
    (receive_i2cWrite p r 0x02 _ _).trans (congrArg (fun v => receiverBus p r v r.dir) (joinBytes_halves w))
  have hnew : receiverCs p { r with out := w } = some (w.getLsbD p.csBit.val) :=
    receiverCs_driven (r := { r with out := w }) hd
  rw [hwrite, receiverBus, receiverCs_driven hd]
  simp only [hnew]
  cases r.out.getLsbD p.csBit.val <;> cases w.getLsbD p.csBit.val <;> rfl

/-- Where a write leaves chip-select low, nothing is clocked in yet. -/
theorem receive_select {p : Params} {r : Receiver} {w : Word16} (h : Between p r)
    (hw : w.getLsbD p.csBit.val = false) : receive p r (outWrite p w .ok) = { r with out := w, acc := [] } := by
  rw [receive_outWrite h.driven, hw]
  obtain hhigh | hempty := h.fresh
  · rw [hhigh]; rfl
  · simp [hempty]

/-- The five events of a bit clock it in while chip-select is low. -/
theorem receive_bitEvents {p : Params} {r : Receiver} (hclk : r.clk = some false) (hcs : receiverCs p r = some false)
    (n : Nat) (b : Level) :
    (bitEvents n b).foldl (receive p) r = { r with clk := some false, sda := some b, acc := r.acc ++ [b] } := by
  have hcs' : receiverCs p { r with sda := some b } = some false := hcs
  have hup : receive p { r with sda := some b } (.line .clk true) =
      { r with clk := some true, sda := some b, acc := r.acc ++ [b] } := if_pos ⟨hclk, hcs'⟩
  show receive p (receive p { r with sda := some b } (.line .clk true)) (.line .clk false) = _
  rw [hup]
  rfl

/-- The bits of a frame are clocked in, in order. -/
theorem receive_bits {p : Params} (n : Nat) (bs : List Level) {r : Receiver} (hclk : r.clk = some false)
    (hcs : receiverCs p r = some false) :
    ∃ d, (bs.flatMap (bitEvents n)).foldl (receive p) r = { r with sda := d, acc := r.acc ++ bs } := by
  induction bs generalizing r with
  | nil => exact ⟨r.sda, by rw [List.append_nil]; rfl⟩
  | cons b bs ih =>
    obtain ⟨d, hd⟩ := ih (r := { r with clk := some false, sda := some b, acc := r.acc ++ [b] }) rfl hcs
    refine ⟨d, ?_⟩
    rw [List.flatMap_cons, List.foldl_append, receive_bitEvents hclk hcs, hd, ← hclk, List.append_assoc]
    rfl

/-- Nine bits as sent are the frame that was sent (R80, R152). -/
theorem delivered_wireBits (m : Level) (b : Byte) : delivered (wireBits m b) = .frame m b := by
  have hbits : ∀ b : Byte, BitVec.ofNat 8 (bitsValue [b.getLsbD 7, b.getLsbD 6, b.getLsbD 5, b.getLsbD 4, b.getLsbD 3,
      b.getLsbD 2, b.getLsbD 1, b.getLsbD 0]) = b := by decide
  exact congrArg (Received.frame m) (hbits b)

/-- One chip-select cycle delivers its frame. -/
theorem receive_xferEvents {p : Params} {r : Receiver} (h : Between p r) (w : Word16) (m : Level) (b : Byte) :
    Between p ((xferEvents p true w m b .ok .ok).foldl (receive p) r) ∧
      ((xferEvents p true w m b .ok .ok).foldl (receive p) r).frames = r.frames ++ [.frame m b] := by
  have hlow : (insertBit w p.csBit false).getLsbD p.csBit.val = false := by
    rw [getLsbD_insertBit _ _ _ _ p.csBit.isLt, if_pos rfl]
  have hhigh : (insertBit w p.csBit true).getLsbD p.csBit.val = true := by
    rw [getLsbD_insertBit _ _ _ _ p.csBit.isLt, if_pos rfl]
  obtain ⟨d, hd⟩ := receive_bits (p := p) p.tBitUs (wireBits m b)
    (r := { r with out := insertBit w p.csBit false, acc := [] }) h.clk
    ((receiverCs_driven (r := { r with out := insertBit w p.csBit false, acc := [] }) h.driven).trans
      (congrArg some hlow))
  have hrun : (xferEvents p true w m b .ok .ok).foldl (receive p) r = { r with
      out := insertBit w p.csBit true, sda := d, acc := wireBits m b, frames := r.frames ++ [.frame m b] } := by
    dsimp only at hd
    have hdelay : ∀ r n, receive p r (.delayUs n) = r := fun _ _ => rfl
    simp only [xferEvents, busSet, if_true, List.foldl_append, List.foldl_cons, List.foldl_nil, hdelay]
    rw [receive_select h hlow, hd, receive_outWrite]
    · simp only [hlow, hhigh, List.nil_append, delivered_wireBits]
      rfl
    · exact h.driven
  rw [hrun]
  exact ⟨⟨h.clk, h.driven, .inl hhigh⟩, rfl⟩

/-- A reset pulse, from a chip-select that is high, delivers nothing. -/
theorem receive_resetEvents {p : Params} (hne : p.csBit ≠ p.rstBit) {r : Receiver} (h : Between p r)
    (hhigh : r.out.getLsbD p.csBit.val = true) (w : Word16) :
    Between p ((resetEvents p true w .ok .ok).foldl (receive p) r) ∧
      ((resetEvents p true w .ok .ok).foldl (receive p) r).frames = r.frames := by
  have hbit : ∀ v, (insertBit w p.rstBit v).getLsbD p.csBit.val = w.getLsbD p.csBit.val := fun v => by
    rw [getLsbD_insertBit _ _ _ _ p.csBit.isLt, if_neg fun e => hne (Fin.ext e)]
  have hrun : ∃ acc, (resetEvents p true w .ok .ok).foldl (receive p) r =
      { r with out := insertBit w p.rstBit true, acc := acc } ∧ (w.getLsbD p.csBit.val = true ∨ acc = []) := by
    show ∃ acc, receive p (receive p r (outWrite p (insertBit w p.rstBit false) .ok))
      (outWrite p (insertBit w p.rstBit true) .ok) = _ ∧ _
    rw [receive_outWrite h.driven, receive_outWrite]
    · simp only [hbit, hhigh]
      cases w.getLsbD p.csBit.val
      · exact ⟨[], rfl, .inr rfl⟩
      · exact ⟨r.acc, rfl, .inl rfl⟩
    · exact h.driven
  obtain ⟨acc, hrun, hfresh⟩ := hrun
  rw [hrun]
  exact ⟨⟨h.clk, h.driven, hfresh.imp_left fun hw => (hbit true).trans hw⟩, rfl⟩

/-! Frames in a row, and the entries of a table. -/

theorem receive_framesShape {p : Params} (w : Word16) (fs : List (Level × Byte)) {r : Receiver} (h : Between p r) :
    Between p ((framesShape p true w fs).foldl (receive p) r) ∧
      ((framesShape p true w fs).foldl (receive p) r).frames = r.frames ++ fs.map fun f => .frame f.1 f.2 := by
  induction fs generalizing r with
  | nil => exact ⟨h, (List.append_nil _).symm⟩
  | cons f fs ih =>
    obtain ⟨hb, hf⟩ := receive_xferEvents h w f.1 f.2
    obtain ⟨hb', hf'⟩ := ih hb
    rw [framesShape, List.flatMap_cons, List.foldl_append]
    exact ⟨hb', by rw [← framesShape, hf', hf, List.append_assoc]; rfl⟩

theorem receive_entryShape {p : Params} (w : Word16) (e : RegisterOp) {r : Receiver} (h : Between p r) :
    Between p ((entryShape p true w e).foldl (receive p) r) ∧
      ((entryShape p true w e).foldl (receive p) r).frames =
        r.frames ++ (entryFrames e).map fun f => .frame f.1 f.2 := by
  cases e with
  | write op c ps => exact receive_framesShape w _ h
  | delay ms => exact ⟨h, (List.append_nil _).symm⟩

theorem receive_table {p : Params} (w : Word16) (t : List RegisterOp) {r : Receiver} (h : Between p r) :
    Between p ((t.flatMap (entryShape p true w)).foldl (receive p) r) ∧
      ((t.flatMap (entryShape p true w)).foldl (receive p) r).frames =
        r.frames ++ (t.flatMap entryFrames).map fun f => .frame f.1 f.2 := by
  induction t generalizing r with
  | nil => exact ⟨h, (List.append_nil _).symm⟩
  | cons e t ih =>
    obtain ⟨hb, hf⟩ := receive_entryShape w e h
    obtain ⟨hb', hf'⟩ := ih hb
    rw [List.flatMap_cons, List.foldl_append, List.flatMap_cons, List.map_append]
    exact ⟨hb', by rw [hf', hf, List.append_assoc]⟩

/-! From the state to the receiver, and from an operation to its events. -/

/-- With an idle link and chip-select driven high, the receiver of the trace is between frames. -/
theorem between_of_traceInv {s : State} (h : TraceInv s) (hcs : csLine s = some true) (hclk : s.clk = .driven false) :
    Between s.params (receiver s.params s.tr) ∧ (receiver s.params s.tr).out.getLsbD s.params.csBit.val = true := by
  obtain ⟨hout, hdir, hclk'⟩ := receiver_follows s.params s.tr (receiverStart s.params) .unconfigured rfl
  rw [csLine, expanderLine] at hcs
  split at hcs
  · cases hcs
  · rename_i hdriven
    have hhigh : (receiver s.params s.tr).out.getLsbD s.params.csBit.val = true := by
      rw [receiver, hout]
      exact h.out ▸ Option.some.inj hcs
    refine ⟨⟨?_, ?_, .inl hhigh⟩, hhigh⟩
    · rw [receiver, hclk', ← h.clk, hclk]
      rfl
    · rw [receiver, hdir]
      exact (h.dir ▸ Bool.eq_false_iff.2 hdriven)

theorem eraseAck_of_acked {e : Event} (h : isAcked e = true) : eraseAck e = e := by
  cases e with
  | i2cWrite a r l b k | i2cProbe a k =>
    obtain rfl : k = .ok := by simpa [isAcked] using h
    rfl
  | _ => rfl

/-- Acknowledged events are their shape. -/
theorem Sends.tr_of_acked {sh : List Event} {s t : State} (h : Sends sh s t)
    (hall : (newEvents s t).all isAcked = true) : t.tr = s.tr ++ sh := by
  obtain ⟨es, a, d, rfl, rfl⟩ := h
  rw [newEvents, List.drop_left, List.all_eq_true] at hall
  rw [(List.map_congr_left fun e he => eraseAck_of_acked (hall e he)).trans (List.map_id' es)]

/-- A receiver between frames, chip-select high, gets exactly these frames from these events. -/
def Delivers (p : Params) (sh : List Event) (fs : List (Level × Byte)) : Prop :=
  ∀ r, Between p r → r.out.getLsbD p.csBit.val = true →
    (sh.foldl (receive p) r).frames = r.frames ++ fs.map fun f => .frame f.1 f.2

/-- From `s` to `t` an operation sent events that, acknowledged, deliver these frames; the programmer's own state may
have changed too. -/
def Transfers (s t : State) (fs : List (Level × Byte)) : Prop :=
  ∃ sh i n q u, Sends sh { s with ppIndex := i, ppState := n, ppDone := q } u ∧ t = returned .void u ∧
    Delivers s.params sh fs

theorem transfers_of_sendFrames {s t : State} {f : State → State} {fs : List (Level × Byte)}
    (hi : s.expInitialized = true) (hf : f s = sendFrames fs s) (h : whenLinked f s = .next t) : Transfers s t fs := by
  have hsend := sends_sendFrames fs s
  rw [← hf, hi] at hsend
  exact ⟨_, _, _, _, _, hsend, (whenLinked_next.1 h).2, fun _ hr _ => (receive_framesShape _ _ hr).2⟩

theorem transfers_of_delay {s t : State} {ms : Nat} (h : whenLinked (delayMs ms) s = .next t) : Transfers s t [] :=
  ⟨_, _, _, _, _, sends_delayMs ms s, (whenLinked_next.1 h).2, fun _ _ _ => (List.append_nil _).symm⟩

theorem transfers_of_panelReset {s t : State} (hi : s.expInitialized = true) (hne : s.params.csBit ≠ s.params.rstBit)
    (h : whenLinked panelReset s = .next t) : Transfers s t [] := by
  have hsend := sends_panelReset s
  rw [hi] at hsend
  exact ⟨_, _, _, _, _, hsend, (whenLinked_next.1 h).2, fun _ hr hhigh =>
    (receive_resetEvents hne hr hhigh _).2.trans (List.append_nil _).symm⟩

theorem transfers_of_progRun {s t : State} (hi : s.expInitialized = true) (hne : s.params.csBit ≠ s.params.rstBit)
    (h : whenLinked progRun s = .next t) : Transfers s t (s.params.table.flatMap entryFrames) := by
  have hreset := sends_panelReset (progRunStart s)
  have htable := sends_replayTable s.params.table (panelReset (progRunStart s)) true
  have hshape : entryShape (panelReset (progRunStart s)).params (panelReset (progRunStart s)).expInitialized =
      entryShape s.params true := by
    rw [hreset.params, hreset.expInitialized]
    exact congrArg (entryShape s.params) hi
  rw [← progRun_unfold, hshape] at htable
  rw [show (progRunStart s).expInitialized = true from hi] at hreset
  refine ⟨_, _, _, _, _, (hreset.programmer _ _ true).trans htable, (whenLinked_next.1 h).2, fun r hr hhigh => ?_⟩
  obtain ⟨hb, hf⟩ := receive_resetEvents hne hr hhigh s.expMirror
  rw [List.foldl_append]
  exact (receive_table _ _ hb).2.trans (congrArg (· ++ _) hf)

/-- Every transfer operation sends its frames (R153, R177). -/
theorem exec_transfers {i : Instr} {s t : State} {fs : List (Level × Byte)} (hfs : framesOf s.params i = some fs)
    (hne : i = .progRun ∨ i = .panelReset → s.params.csBit ≠ s.params.rstBit) (hi : s.expInitialized = true)
    (h : exec i s = .next t) : Transfers s t fs := by
  cases i with
  | frameCmd b | frameData b | sendData b | xfer m b | sendCommand c =>
    cases hfs
    exact transfers_of_sendFrames hi rfl h
  | splitCmd a b =>
    cases hfs
    exact transfers_of_sendFrames (f := fun u => xfer Config.modeData b (xfer Config.modeCmd a u)) hi rfl h
  | writeReg c ps | regopWrite op c ps | entryWrite op c ps =>
    cases hfs
    exact transfers_of_sendFrames hi (replayEntry_write .setParam c ps s) h
  | regopDelay ms | entryDelay ms => cases hfs; exact transfers_of_delay h
  | panelReset => cases hfs; exact transfers_of_panelReset hi (hne (.inr rfl)) h
  | progRun => cases hfs; exact transfers_of_progRun hi (hne (.inl rfl)) h
  | _ => cases hfs

/-- Settles O25: the events an operation sends, passed through the receiver. -/
theorem receiverGetsTheFramesSent : Obligations.ReceiverGetsTheFramesSent := by
  intro s t i fs hfs hne hi _ htrace hcs hclk h hacked
  obtain ⟨sh, k, n, q, u, hsend, rfl, hdeliver⟩ := exec_transfers hfs hne hi h
  obtain ⟨hbetween, hhigh⟩ := between_of_traceInv htrace hcs hclk
  have htr : u.tr = s.tr ++ sh := hsend.tr_of_acked hacked
  have hparams : u.params = s.params := hsend.params
  rw [returned_params, returned_tr, hparams, htr, rx, receiver, List.foldl_append]
  exact hdeliver _ hbetween hhigh

end Sys2Proof.Machine
end

section
/-! PROOF. What the bus, the lines and the control trace see of any operation: a walk of a few kinds of moves, so that
an invariant of theirs is proved once for each kind. -/

namespace Sys2Proof.Machine

/-! BRING_UP, stage by stage (R220). -/

/-- EXP_INIT ends in error, or with the mirror and the flag written (R110). -/
theorem expInit_cases (s : State) :
    (∃ o d es as k, expInit s = ({ s with
        expHwOut := o, expHwDir := d, tr := s.tr ++ es, acks := as, draws := k }, some (.transportAbsent .expInit))) ∨
      ∃ o d es as k, expInit s = ({ s with
        expHwOut := o, expHwDir := d, tr := s.tr ++ es, acks := as, draws := k,
        expMirror := initOutWord s.params, expInitialized := true }, none) := by
  cases h0 : ackAt s 0 with
  | nack => exact .inl ⟨_, _, _, _, _, expInit_of_probe_nack h0⟩
  | ok =>
    cases h1 : ackAt s 1 with
    | nack => exact .inl ⟨_, _, _, _, _, expInit_of_dirWrite_nack h0 h1⟩
    | ok =>
      cases h2 : ackAt s 2 with
      | nack => exact .inl ⟨_, _, _, _, _, expInit_of_outWrite_nack h0 h1 h2⟩
      | ok => exact .inr ⟨_, _, _, _, _, expInit_of_all_ok h0 h1 h2⟩

theorem linkSide_of_expInit {s t : State} {e : Option Err} (h : expInit s = (t, e)) : LinkSide s t := by
  have hl := linkSide_expInit s
  rwa [h] at hl

/-- TS_CONFIGURE with the pixel interface absent: the probe only (R180). -/
def interfaceAbsent (s : State) : State := emit (.pixIfProbe .absent) (afterPixIf s)

/-- TS_CONFIGURE with the pixel interface present (R180). -/
def interfaceLatched (t : Timing) (d : DataPins) (c : CtrlPins) (s : State) : State :=
  { emit (.pixIfProbe .present) (afterPixIf s) with tsCfg := ⟨t, d, c⟩, tsState := .configured }

theorem tsConfigure_cases (t : Timing) (d : DataPins) (c : CtrlPins) (s : State) :
    tsConfigure t d c s = (interfaceAbsent s, some (.transportAbsent .tsConfigure)) ∨
      tsConfigure t d c s = (interfaceLatched t d c s, none) := by
  cases h : pixIfNext s with
  | absent => exact .inl (tsConfigure_absent t d c h)
  | present => exact .inr (tsConfigure_present t d c h)

/-- The state in which stage 5b of BRING_UP starts. -/
def bringUpLatched (s : State) : State := interfaceLatched (timingOf s.params) s.params.dataPins s.params.ctrlPins s

/-- Stage 5 of BRING_UP ends in these three ways only. -/
theorem bringUpStream_cases (s : State) :
    bringUpStream s = failBringUp (.transportAbsent .tsConfigure) (interfaceAbsent s) ∨
    (∃ t rounds, TsStartFailed (bringUpLatched s) t rounds ∧ bringUpStream s = failBringUp (.alloc .tsStart) t) ∨
    ∃ t rounds, TsStarted (bringUpLatched s) t rounds ∧
      bringUpStream s = { t with bringUpReturning := true, lastResult := none } := by
  obtain h | h := tsConfigure_cases (timingOf s.params) s.params.dataPins s.params.ctrlPins s
  · exact .inl (by simp only [bringUpStream, h])
  · obtain ⟨t, rounds, ⟨hok, h'⟩ | ⟨hfail, h'⟩⟩ := tsStart_cases (bringUpLatched s)
    · exact .inr (.inr ⟨t, rounds, hok, by rw [bringUpLatched] at h'; simp only [bringUpStream, h, h']⟩)
    · exact .inr (.inl ⟨t, rounds, hfail, by rw [bringUpLatched] at h'; simp only [bringUpStream, h, h']⟩)

theorem tsConfigureRefusal_eq_none {st : TsState} {t : Timing} {d : DataPins} {c : CtrlPins} :
    tsConfigureRefusal st t d c = none ↔ st = .unconfigured ∧ configWellFormed t d c = true := by
  unfold tsConfigureRefusal
  split
  · rename_i h
    exact ⟨fun h => (nomatch h), fun h' => absurd h'.1 h⟩
  · split <;> simp_all

/-- BRING_UP, where it is not refused, fails at its first stage or comes to its fifth. -/
theorem exec_bringUp_next {s t : State} (h : exec .bringUp s = .next t) :
    s.panelReady = false ∧ s.bringUpReturning = false ∧ s.bringupError = none ∧
      ((∃ u, expInit s = (u, some (.transportAbsent .expInit)) ∧ t = failBringUp (.transportAbsent .expInit) u) ∨
       (s.tsState = .unconfigured ∧ configWellFormed (timingOf s.params) s.params.dataPins s.params.ctrlPins = true ∧
         ∃ u, expInit s = (u, none) ∧ u.expInitialized = true ∧ t = bringUpStream (bringUpPanel u))) := by
  obtain ⟨hready, hret, herr, hrun⟩ := execBringUp_next h
  refine ⟨hready, hret, herr, ?_⟩
  obtain ⟨o, d, es, as, k, hu⟩ | ⟨o, d, es, as, k, hu⟩ := expInit_cases s
  · obtain ⟨-, rfl⟩ | ⟨v, e, hv, rfl⟩ := hrun
    · exact .inl ⟨_, hu, by simp only [bringUp, hu]⟩
    · cases hu.symm.trans hv
      exact .inl ⟨_, hu, rfl⟩
  · obtain ⟨hcfg, rfl⟩ | ⟨v, e, hv, rfl⟩ := hrun
    · obtain ⟨hst, hwf⟩ := tsConfigureRefusal_eq_none.1 hcfg
      exact .inr ⟨hst, hwf, _, hu, rfl, by simp only [bringUp, hu]⟩
    · cases hu.symm.trans hv

/-! Moves. -/

/-- An event that is neither a bus write nor a change of a line. -/
def isQuiet : Event → Bool
  | .i2cWrite _ _ _ _ _ | .line _ _ => false
  | .i2cProbe _ _ | .pinCfg _ | .delayUs _ | .delayMs _ | .pixIfProbe _ | .alloc _ _ | .diag _ => true

/-- From `s` to `t` nothing of the parameters, the bus, the link, the programmer and the queue has changed, and the
control trace has grown by quiet events. -/
structure Quiet (s t : State) : Prop where
  params : t.params = s.params
  expMirror : t.expMirror = s.expMirror
  expInitialized : t.expInitialized = s.expInitialized
  expHwOut : t.expHwOut = s.expHwOut
  expHwDir : t.expHwDir = s.expHwDir
  clk : t.clk = s.clk
  sda : t.sda = s.sda
  bl : t.bl = s.bl
  linkConfigured : t.linkConfigured = s.linkConfigured
  ppIndex : t.ppIndex = s.ppIndex
  ppState : t.ppState = s.ppState
  ppDone : t.ppDone = s.ppDone
  requests : t.requests = s.requests
  tr : ∃ es, t.tr = s.tr ++ es ∧ es.all isQuiet = true

theorem Quiet.refl (s : State) : Quiet s s :=
  ⟨rfl, rfl, rfl, rfl, rfl, rfl, rfl, rfl, rfl, rfl, rfl, rfl, rfl, [], (List.append_nil _).symm, rfl⟩

theorem Quiet.trans {s t u : State} (h : Quiet s t) (k : Quiet t u) : Quiet s u where
  params := k.params.trans h.params
  expMirror := k.expMirror.trans h.expMirror
  expInitialized := k.expInitialized.trans h.expInitialized
  expHwOut := k.expHwOut.trans h.expHwOut
  expHwDir := k.expHwDir.trans h.expHwDir
  clk := k.clk.trans h.clk
  sda := k.sda.trans h.sda
  bl := k.bl.trans h.bl
  linkConfigured := k.linkConfigured.trans h.linkConfigured
  ppIndex := k.ppIndex.trans h.ppIndex
  ppState := k.ppState.trans h.ppState
  ppDone := k.ppDone.trans h.ppDone
  requests := k.requests.trans h.requests
  tr := by
    obtain ⟨es, hes, hq⟩ := h.tr
    obtain ⟨fs, hfs, kq⟩ := k.tr
    exact ⟨es ++ fs, by rw [hfs, hes, List.append_assoc], by rw [List.all_append, hq, kq]; rfl⟩

theorem quiet_emit {e : Event} (h : isQuiet e = true) (s : State) : Quiet s (emit e s) :=
  ⟨rfl, rfl, rfl, rfl, rfl, rfl, rfl, rfl, rfl, rfl, rfl, rfl, rfl, [e], rfl, by simpa using h⟩

theorem quiet_returned (r : OpResult) (s : State) : Quiet s (returned r s) :=
  ⟨rfl, rfl, rfl, rfl, rfl, rfl, rfl, rfl, rfl, rfl, rfl, rfl, rfl, [], (List.append_nil _).symm, rfl⟩

theorem quiet_finish {s t : State} (h : Quiet s t) (e : Option Err) : Quiet s (finish (t, e)) := by
  cases e with
  | none => exact h.trans (quiet_returned _ _)
  | some e => exact h.trans (quiet_returned _ _)

theorem quiet_failBringUp {s t : State} (h : Quiet s t) (e : Err) : Quiet s (failBringUp e t) :=
  h.trans ⟨rfl, rfl, rfl, rfl, rfl, rfl, rfl, rfl, rfl, rfl, rfl, rfl, rfl, [.diag e], rfl, rfl⟩

theorem quiet_interfaceAbsent (s : State) : Quiet s (interfaceAbsent s) :=
  ⟨rfl, rfl, rfl, rfl, rfl, rfl, rfl, rfl, rfl, rfl, rfl, rfl, rfl, [_], rfl, rfl⟩

theorem quiet_interfaceLatched (t : Timing) (d : DataPins) (c : CtrlPins) (s : State) :
    Quiet s (interfaceLatched t d c s) :=
  ⟨rfl, rfl, rfl, rfl, rfl, rfl, rfl, rfl, rfl, rfl, rfl, rfl, rfl, [_], rfl, rfl⟩

theorem all_isQuiet_rounds (rounds : List AllocRound) : (rounds.flatMap roundEvents).all isQuiet = true := by
  rw [List.all_flatMap, List.all_eq_true]
  intro a _
  cases a <;> rfl

theorem TsStarted.quiet {s t : State} {rounds : List AllocRound} (h : TsStarted s t rounds) : Quiet s t := by
  obtain ⟨as, d, fb0, fb1, -, -, -, -, -, rfl⟩ := h
  exact ⟨rfl, rfl, rfl, rfl, rfl, rfl, rfl, rfl, rfl, rfl, rfl, rfl, rfl, _, rfl, all_isQuiet_rounds rounds⟩

theorem TsStartFailed.quiet {s t : State} {rounds : List AllocRound} (h : TsStartFailed s t rounds) : Quiet s t := by
  obtain ⟨as, d, pool, -, -, rfl⟩ := h
  exact ⟨rfl, rfl, rfl, rfl, rfl, rfl, rfl, rfl, rfl, rfl, rfl, rfl, rfl, _, rfl, all_isQuiet_rounds rounds⟩

theorem quiet_tsStart (s : State) : Quiet s (finish (tsStart s)) := by
  obtain ⟨t, rounds, ⟨h, e⟩ | ⟨h, e⟩⟩ := tsStart_cases s <;> rw [e] <;> exact quiet_finish h.quiet _

theorem quiet_tsConfigure (t : Timing) (d : DataPins) (c : CtrlPins) (s : State) :
    Quiet s (finish (tsConfigure t d c s)) := by
  obtain h | h := tsConfigure_cases t d c s <;> rw [h]
  · exact quiet_finish (quiet_interfaceAbsent s) _
  · exact quiet_finish (quiet_interfaceLatched t d c s) _

theorem quiet_bringUpStream (s : State) : Quiet s (bringUpStream s) := by
  obtain h | ⟨t, rounds, ht, h⟩ | ⟨t, rounds, ht, h⟩ := bringUpStream_cases s <;> rw [h]
  · exact quiet_failBringUp (quiet_interfaceAbsent s) _
  · exact quiet_failBringUp ((quiet_interfaceLatched _ _ _ s).trans ht.quiet) _
  · exact ((quiet_interfaceLatched _ _ _ s).trans ht.quiet).trans
      ⟨rfl, rfl, rfl, rfl, rfl, rfl, rfl, rfl, rfl, rfl, rfl, rfl, rfl, [], (List.append_nil _).symm, rfl⟩

theorem quiet_tick {s t : State} (h : tsTick s = .next t) : Quiet s t := by
  obtain ⟨d, -, rfl⟩ := tsTick_eq h
  exact ⟨rfl, rfl, rfl, rfl, rfl, rfl, rfl, rfl, rfl, rfl, rfl, rfl, rfl, [], (List.append_nil _).symm, rfl⟩

/-- A FLUSH, TS_NOTIFY and the Writer's moves change these fields only. -/
def WriterSide (s t : State) : Prop :=
  ∃ job f0 f1 vs pending rect res, t = { s with
    flush := job, fb0 := f0, fb1 := f1, earlierViews := vs, flipPending := pending, flipRect := rect,
    lastResult := res }

theorem WriterSide.quiet {s t : State} (h : WriterSide s t) : Quiet s t := by
  obtain ⟨job, f0, f1, vs, pending, rect, res, rfl⟩ := h
  exact ⟨rfl, rfl, rfl, rfl, rfl, rfl, rfl, rfl, rfl, rfl, rfl, rfl, rfl, [], (List.append_nil _).symm, rfl⟩

theorem setBuffer_eq (s : State) (k : Buffer) (fb : Framebuffer) : setBuffer s k fb = { s with
    fb0 := if k = .zero then some fb else s.fb0, fb1 := if k = .one then some fb else s.fb1 } := by
  cases k <;> rfl

theorem keepView_eq (fb : Framebuffer) (s : State) : keepView fb s = { s with
    earlierViews := if s.params.streamMode = .single then currentView s fb :: s.earlierViews
      else s.earlierViews } := by
  cases h : s.params.streamMode <;> simp [keepView, h]

theorem tsNotify_eq (r : Rect) (s : State) : tsNotify r s = { s with
    flipRect := if s.params.streamMode = .double then r else s.flipRect,
    flipPending := if s.params.streamMode = .double then true else s.flipPending } := by
  cases h : s.params.streamMode <;> simp [tsNotify, h]

theorem startFlush_eq (r : Rect) (ps : List Pixel) (fb : Framebuffer) (s : State) :
    startFlush r ps fb s = setBuffer { keepView fb s with
      flush := some { rect := r, before := fb, phase := .notify }, lastResult := none } (stagingOf s)
        (fbWriteAll fb (rectIndices r) ps) := by
  rw [startFlush, keepView_eq]
  rfl

theorem writerSide_startFlush (r : Rect) (ps : List Pixel) (fb : Framebuffer) (s : State) :
    WriterSide s (startFlush r ps fb s) := by
  rw [startFlush_eq, setBuffer_eq, keepView_eq]
  exact ⟨_, _, _, _, _, _, _, rfl⟩

theorem writerSide_execFlush {r : Rect} {ps : List Pixel} {s t : State} (h : execFlush r ps s = .next t) :
    WriterSide s t := by
  obtain ⟨-, -, ⟨-, rfl⟩ | ⟨fb, -, -, -, -, rfl⟩⟩ := execFlush_next h
  · exact ⟨_, _, _, _, _, _, _, rfl⟩
  · exact writerSide_startFlush r ps fb s

theorem writerSide_tsNotify (r : Rect) (s : State) : WriterSide s (returned .void (tsNotify r s)) := by
  rw [tsNotify_eq]
  exact ⟨_, _, _, _, _, _, _, rfl⟩

theorem writerSide_flushContinue {s t : State} (h : flushContinue s = .next t) : WriterSide s t := by
  obtain rfl | ⟨job, -, -, -, rfl⟩ | ⟨job, f, g, -, -, -, -, -, rfl⟩ | ⟨_, fb, -, -, -, -, rfl⟩ | ⟨_, -, -, -, rfl⟩ :=
    flushContinue_next h
  · exact ⟨_, _, _, _, _, _, _, rfl⟩
  · rw [tsNotify_eq]
    exact ⟨_, _, _, _, _, _, _, rfl⟩
  · rw [setBuffer_eq]
    exact ⟨_, _, _, _, _, _, _, rfl⟩
  · rw [keepView_eq]
    exact ⟨_, _, _, _, _, _, _, rfl⟩
  · exact ⟨_, _, _, _, _, _, _, rfl⟩

/-- The kinds of moves every operation but a bus write asked for as such is made of. -/
inductive BusMove : State → State → Prop
  | quiet {s t : State} (h : Quiet s t) : BusMove s t
  | program (i : Nat) (n : PpState) (d : Bool) (s : State) :
      BusMove s { s with ppIndex := i, ppState := n, ppDone := d }
  | linked (s : State) : BusMove s { s with linkConfigured := true }
  | line (l : Line) (n : Level) (s : State) : BusMove s (lineSet l n s)
  | set (pin : Pin) (n : Level) (s : State) : BusMove s (expSet pin n s)
  | init (s : State) : BusMove s (expInit s).1

/-- Moves in a row. -/
def BusMoves (s t : State) : Prop := Relation.ReflTransGen BusMove s t

theorem BusMoves.refl (s : State) : BusMoves s s := Relation.ReflTransGen.refl

theorem BusMoves.single {s t : State} (h : BusMove s t) : BusMoves s t := Relation.ReflTransGen.single h

theorem BusMoves.tail {s t u : State} (h : BusMoves s t) (k : BusMove t u) : BusMoves s u :=
  Relation.ReflTransGen.tail h k

theorem BusMoves.trans {s t u : State} (h : BusMoves s t) (k : BusMoves t u) : BusMoves s u :=
  Relation.ReflTransGen.trans h k

theorem BusMoves.quiet {s t u : State} (h : BusMoves s t) (k : Quiet t u) : BusMoves s u := h.tail (.quiet k)

/-- A predicate every move keeps is kept by moves in a row. -/
theorem BusMoves.keeps {P : State → Prop} (hP : ∀ {s t}, BusMove s t → P s → P t) {s t : State} (h : BusMoves s t)
    (hs : P s) : P t := by
  induction h with
  | refl => exact hs
  | tail _ k ih => exact hP k ih

theorem busMoves_clockBit (b : Level) (s : State) : BusMoves s (clockBit b s) :=
  ((((BusMoves.single (BusMove.line .sda b s)).quiet (quiet_emit rfl _)).tail (.line .clk true _)).quiet
    (quiet_emit rfl _)).tail (.line .clk false _)

theorem busMoves_shiftOut (bs : List Level) (s : State) : BusMoves s (shiftOut bs s) := by
  induction bs generalizing s with
  | nil => exact .refl s
  | cons b bs ih => exact (busMoves_clockBit b s).trans (ih _)

theorem busMoves_xfer (m : Level) (p : Byte) (s : State) : BusMoves s (xfer m p s) :=
  ((((BusMoves.single (BusMove.set .cs false s)).quiet (quiet_emit rfl _)).trans
    (busMoves_shiftOut _ _)).tail (.set .cs true _)).quiet (quiet_emit rfl _)

theorem busMoves_sendFrames (fs : List (Level × Byte)) (s : State) : BusMoves s (sendFrames fs s) := by
  induction fs generalizing s with
  | nil => exact .refl s
  | cons f fs ih => exact (busMoves_xfer f.1 f.2 s).trans (ih _)

theorem busMoves_replayEntry (e : RegisterOp) (s : State) : BusMoves s (replayEntry e s) := by
  cases e with
  | delay ms => exact .single (.quiet (quiet_emit rfl s))
  | write op c ps =>
    rw [replayEntry_write]
    exact busMoves_sendFrames _ s

theorem busMoves_panelReset (s : State) : BusMoves s (panelReset s) :=
  ((BusMoves.single (BusMove.set .rst false s)).quiet (quiet_emit rfl _)).tail (.set .rst true _)

theorem busMoves_replayTable (es : List RegisterOp) (s : State) : BusMoves s (replayTable es s) := by
  induction es generalizing s with
  | nil => exact .refl s
  | cons e es ih =>
    exact ((busMoves_replayEntry e s).tail (.program _ _ (replayEntry e s).ppDone _)).trans
      (ih (advanceIndex (replayEntry e s)))

theorem busMoves_progRun (s : State) : BusMoves s (progRun s) := by
  rw [progRun_unfold]
  exact (((BusMoves.single (.program 0 .reset false s)).trans (busMoves_panelReset _)).trans
    (busMoves_replayTable _ _)).tail (.program _ _ true _)

theorem busMoves_linkInit (s : State) : BusMoves s (linkInit s) := by
  have hpins : Quiet s (emit (.pinCfg .bl) (emit (.pinCfg .sda) (emit (.pinCfg .clk) s))) :=
    ((quiet_emit rfl s).trans (quiet_emit rfl _)).trans (quiet_emit rfl _)
  exact ((((BusMoves.single (.quiet hpins)).tail (.line .clk false _)).tail
    (.line .sda false _)).tail (.line .bl false _)).tail (.linked _)

theorem busMoves_bringUpPanel (s : State) : BusMoves s (bringUpPanel s) :=
  ((busMoves_linkInit s).trans (busMoves_progRun _)).tail (.line .bl Config.blOn _)

theorem busMoves_whenLinked {f : State → State} {s t : State} (hf : BusMoves s (f s)) (h : whenLinked f s = .next t) :
    BusMoves s t := by
  rw [(whenLinked_next.1 h).2]
  exact hf.quiet (quiet_returned _ _)

theorem busMoves_expInit_eq {s t : State} {e : Option Err} (h : expInit s = (t, e)) : BusMoves s t := by
  have := BusMove.init s
  rw [h] at this
  exact .single this

theorem busMoves_bringUp {s t : State} (h : exec .bringUp s = .next t) : BusMoves s t := by
  obtain ⟨-, -, -, ⟨u, hu, rfl⟩ | ⟨-, -, u, hu, -, rfl⟩⟩ := exec_bringUp_next h
  · exact (busMoves_expInit_eq hu).quiet (quiet_failBringUp (.refl _) _)
  · exact ((busMoves_expInit_eq hu).trans (busMoves_bringUpPanel u)).quiet (quiet_bringUpStream _)

theorem execTsNotify_next {r : Rect} {s t : State} (h : execTsNotify r s = .next t) :
    tsNotifyRefusal r s = none ∧ t = returned .void (tsNotify r s) := by
  unfold execTsNotify at h
  split at h
  · cases h
  · cases h; exact ⟨‹_›, rfl⟩

theorem execTsStart_next {s t : State} (h : execTsStart s = .next t) :
    s.tsState = .configured ∧ s.bringupError = none ∧ t = finish (tsStart s) := by
  unfold execTsStart tsStartRefusal at h
  by_cases hst : s.tsState = .configured
  · cases he : s.bringupError with
    | none => simp [hst, he] at h; exact ⟨hst, rfl, h.symm⟩
    | some e => simp [hst, he] at h
  · simp [hst] at h

theorem execTsConfigure_next {t : Timing} {d : DataPins} {c : CtrlPins} {s u : State}
    (h : execTsConfigure t d c s = .next u) :
    s.tsState = .unconfigured ∧ configWellFormed t d c = true ∧ u = finish (tsConfigure t d c s) := by
  unfold execTsConfigure at h
  split at h
  · cases h
  · cases h
    obtain ⟨hst, hwf⟩ := tsConfigureRefusal_eq_none.1 ‹_›
    exact ⟨hst, hwf, rfl⟩

/-- The operations of the streamer and the orchestrator are quiet, but for BRING_UP. -/
theorem exec_quiet {i : Instr} {s t : State} (h : exec i s = .next t) (hi : streamSide i = true) (hb : i ≠ .bringUp) :
    Quiet s t := by
  cases i with
  | tsConfigure a d c =>
    obtain ⟨-, -, rfl⟩ := execTsConfigure_next h
    exact quiet_tsConfigure a d c s
  | tsStart =>
    obtain ⟨-, -, rfl⟩ := execTsStart_next h
    exact quiet_tsStart s
  | tsNotify r =>
    obtain ⟨-, rfl⟩ := execTsNotify_next h
    exact (writerSide_tsNotify r s).quiet
  | tsTick => exact quiet_tick (exec_tsTick_next h).2
  | flush r ps => exact (writerSide_execFlush h).quiet
  | bringUp => exact absurd rfl hb
  | _ => cases hi

/-- Every operation but a bus write asked for as such is a walk of these moves. -/
theorem exec_busMoves {i : Instr} {s t : State} (hi : isBusWrite i = false) (h : exec i s = .next t) :
    BusMoves s t := by
  cases i with
  | i2cWrite _ _ _ _ _ | i2cWriteDir _ _ _ _ | i2cWriteOut _ _ _ _ => cases hi
  | frameCmd p | frameData p | sendData p | xfer m p => exact busMoves_whenLinked (busMoves_xfer _ _ _) h
  | splitCmd a b =>
    exact busMoves_whenLinked (f := fun u => xfer Config.modeData b (xfer Config.modeCmd a u))
      ((busMoves_xfer _ _ _).trans (busMoves_xfer _ _ _)) h
  | sendCommand c => exact busMoves_whenLinked ((busMoves_xfer _ _ _).trans (busMoves_xfer _ _ _)) h
  | entryWrite op c ps | regopWrite op c ps | writeReg c ps =>
    exact busMoves_whenLinked (busMoves_replayEntry (.write .setParam c ps) s) h
  | entryDelay n | regopDelay n | delayUs n | delayMs n =>
    exact busMoves_whenLinked (.single (.quiet (quiet_emit rfl s))) h
  | lineSet l n => exact busMoves_whenLinked (.single (.line l n s)) h
  | clk n => exact busMoves_whenLinked (.single (.line .clk n s)) h
  | sda n => exact busMoves_whenLinked (.single (.line .sda n s)) h
  | bl n => exact busMoves_whenLinked (.single (.line .bl n s)) h
  | backlightOn => exact busMoves_whenLinked (.single (.line .bl Config.blOn s)) h
  | panelReset => exact busMoves_whenLinked (busMoves_panelReset s) h
  | progRun => exact busMoves_whenLinked (busMoves_progRun s) h
  | linkInit => cases h; exact (busMoves_linkInit s).quiet (quiet_returned _ _)
  | expInit => cases h; exact (BusMoves.single (.init s)).quiet (quiet_finish (.refl _) _)
  | expSet pin n => cases h; exact (BusMoves.single (.set pin n s)).quiet (quiet_returned _ _)
  | cs n => cases h; exact (BusMoves.single (.set .cs n s)).quiet (quiet_returned _ _)
  | rst n => cases h; exact (BusMoves.single (.set .rst n s)).quiet (quiet_returned _ _)
  | expGet pin => cases h; exact .single (.quiet (quiet_returned _ _))
  | tsConfigure _ _ _ | tsStart | tsNotify _ | tsTick | flush _ _ =>
    exact .single (.quiet (exec_quiet h rfl nofun))
  | bringUp => exact busMoves_bringUp h

/-- A bus write asked for as such is one transaction. -/
theorem exec_busWrite {i : Instr} {s t : State} (hi : isBusWrite i = true) (h : exec i s = .next t) :
    ∃ a r l b, t = returned .void (i2cTransaction a r l b s).2 := by
  have row : ∀ {a w r l b}, busWriteRow a w r l b s = .next t → t = returned .void (i2cTransaction a r l b s).2 := by
    intro a w r l b h
    unfold busWriteRow at h
    split at h <;> cases h
    rfl
  cases i with
  | i2cWrite a w r l b | i2cWriteDir a w l b | i2cWriteOut a w l b => exact ⟨_, _, _, _, row h⟩
  | _ => cases hi

end Sys2Proof.Machine
end

section
/-! PROOF. What any step does, by the agent that moves; and the chip, the lines and the traces along any step. -/

namespace Sys2Proof.Machine

/-! Steps. -/

/-- A step that answers a next state lets the turn pass, is a tick, the Sequencer's return or the Writer's move, or runs
the host's next request. -/
theorem step_next {s t : State} (h : step s = .next t) :
    ∃ ts d, t = { s with turns := ts, draws := d } ∨
      (s.tsState = .running ∧ tsTick { s with turns := ts, draws := d } = .next t) ∨
      (s.bringUpReturning = true ∧ t = returnReady { s with turns := ts, draws := d }) ∨
      flushContinue { s with turns := ts, draws := d } = .next t ∨
      ∃ q qs i, s.bringUpReturning = false ∧ s.requests = q :: qs ∧ mayIssue i s = true ∧
        exec i { s with turns := ts, draws := d, requests := qs } = .next t := by
  obtain ⟨ts, d, e | e | e | e⟩ := step_cases s <;> rw [e] at h <;> refine ⟨ts, d, ?_⟩
  · unfold streamerMove at h
    split at h
    · exact .inr (.inl ⟨‹_›, h⟩)
    · exact .inl (by simpa using h.symm)
  · unfold bringUpContinue at h
    split at h
    · exact .inr (.inr (.inl ⟨‹_›, by simpa using h.symm⟩))
    · exact .inl (by simpa using h.symm)
  · exact .inr (.inr (.inr (.inl h)))
  · obtain k | ⟨x, k⟩ | ⟨q, qs, i, hret, hq, -, hm, k⟩ := requestMove_cases { s with turns := ts, draws := d } <;>
      rw [k] at h
    · exact .inl (by simpa using h.symm)
    · cases h
    · exact .inr (.inr (.inr (.inr ⟨q, qs, i, hret, hq, hm, h⟩)))

/-- A relation between states is one of every step, if it does not ask about the schedule and each move meets it. -/
theorem step_rel {R : State → State → Prop}
    (schedule : ∀ s ts d qs, R s { s with turns := ts, draws := d, requests := qs })
    (trans : ∀ {s t u}, R s t → R t u → R s u)
    (tick : ∀ {s t}, s.tsState = .running → tsTick s = .next t → R s t)
    (ret : ∀ {s}, s.bringUpReturning = true → R s (returnReady s))
    (writer : ∀ {s t}, flushContinue s = .next t → R s t)
    (request : ∀ {i s t}, exec i s = .next t → R s t) {s t : State} (h : step s = .next t) : R s t := by
  obtain ⟨ts, d, rfl | ⟨hr, k⟩ | ⟨hret, rfl⟩ | k | ⟨q, qs, i, -, -, -, k⟩⟩ := step_next h
  · exact schedule s ts d s.requests
  · exact trans (schedule s ts d s.requests) (tick hr k)
  · exact trans (schedule s ts d s.requests) (ret hret)
  · exact trans (schedule s ts d s.requests) (writer k)
  · exact trans (schedule s ts d qs) (request k)

/-! What quiet events leave alone. -/

/-- A fold is not moved by elements none of which moves it. -/
theorem foldl_of_still {α β : Type} {f : α → β → α} {es : List β} (h : ∀ e ∈ es, ∀ a, f a e = a) (a : α) :
    es.foldl f a = a := by
  induction es generalizing a with
  | nil => rfl
  | cons e es ih =>
    rw [List.foldl_cons, h e List.mem_cons_self]
    exact ih (fun x hx => h x (List.mem_cons_of_mem _ hx)) a

theorem chipRegAfter_quiet {es : List Event} (h : es.all isQuiet = true) (p : Params) (reg : Byte) (q : Word16) :
    chipRegAfter p reg q es = q :=
  foldl_of_still (fun e he a => by have := List.all_eq_true.1 h e he; cases e <;> trivial) q

theorem padAfter_quiet {es : List Event} (h : es.all isQuiet = true) (l : Line) (q : Pad) : padAfter l q es = q :=
  foldl_of_still (fun e he a => by have := List.all_eq_true.1 h e he; cases e <;> trivial) q

theorem lastOutAnswer_quiet {es : List Event} (h : es.all isQuiet = true) (p : Params) (tr : List Event) :
    lastOutAnswer p (tr ++ es) = lastOutAnswer p tr := by
  rw [lastOutAnswer, List.foldl_append]
  exact foldl_of_still (fun e he a => by have := List.all_eq_true.1 h e he; cases e <;> trivial) _

theorem lastOutAnswer_line (p : Params) (tr : List Event) (l : Line) (n : Level) :
    lastOutAnswer p (tr ++ [.line l n]) = lastOutAnswer p tr := by
  rw [lastOutAnswer, List.foldl_append]
  rfl

theorem lastOutAnswer_outWrite (p : Params) (tr : List Event) (w : Word16) (r : Ack) :
    lastOutAnswer p (tr ++ [outWrite p w r]) = some r := by
  rw [lastOutAnswer, List.foldl_append]
  exact if_pos ⟨rfl, rfl⟩

/-! ExpanderBus: R119 along every operation. -/

theorem otherBitsDefault_insertBit {p : Params} {w dflt : Word16} (h : otherBitsDefault p w dflt) (pin : Pin)
    (n : Level) : otherBitsDefault p (insertBit w (pinBit p pin) n) dflt := by
  intro k hc hr
  rw [getLsbD_insertBit _ _ _ _ k.isLt, if_neg, h k hc hr]
  cases pin with
  | cs => exact fun e => hc (Fin.ext e)
  | rst => exact fun e => hr (Fin.ext e)

theorem otherBitsDefault_initOutWord (p : Params) : otherBitsDefault p (initOutWord p) p.expOutDefault :=
  otherBitsDefault_insertBit (otherBitsDefault_insertBit (fun _ _ _ => rfl) .cs true) .rst true

theorem otherBitsDefault_initDirWord (p : Params) : otherBitsDefault p (initDirWord p) p.expDirDefault :=
  otherBitsDefault_insertBit (otherBitsDefault_insertBit (fun _ _ _ => rfl) .cs false) .rst false

theorem initDirWord_driven (p : Params) :
    (initDirWord p).getLsbD p.csBit.val = false ∧ (initDirWord p).getLsbD p.rstBit.val = false := by
  have hbit := getLsbD_insertBit (insertBit p.expDirDefault p.csBit false) p.rstBit false
  refine ⟨?_, (hbit _ p.rstBit.isLt).trans (if_pos rfl)⟩
  rw [initDirWord, hbit _ p.csBit.isLt, getLsbD_insertBit _ _ _ _ p.csBit.isLt, if_pos rfl, ite_self]

theorem lastOutAnswer_probe (p : Params) (tr : List Event) (r : Ack) :
    lastOutAnswer p (tr ++ [.i2cProbe p.expAddr r]) = lastOutAnswer p tr :=
  lastOutAnswer_quiet rfl p tr

theorem lastOutAnswer_dirWrite (p : Params) (tr : List Event) (w : Word16) (r : Ack) :
    lastOutAnswer p (tr ++ [dirWrite p w r]) = lastOutAnswer p tr := by
  rw [lastOutAnswer, List.foldl_append]
  exact if_neg fun h => absurd h.2 (by decide)

/-- What EXP_SET and EXP_INIT leave of R119: the mirror and the direction word have their defaults outside the two pins,
and the output register follows the mirror where the last write of it was acknowledged. -/
theorem expanderInv_written {s t : State} {w : Word16} {r : Ack} {es : List Event}
    (hp : t.params = s.params) (htr : t.tr = s.tr ++ es ++ [outWrite s.params w r])
    (hout : t.expHwOut = chipAfter s.expHwOut w r) (hm : t.expMirror = w)
    (hw : otherBitsDefault s.params w s.params.expOutDefault)
    (hd : otherBitsDefault s.params t.expHwDir s.params.expDirDefault)
    (hdr : t.expHwDir.getLsbD s.params.csBit.val = false ∧ t.expHwDir.getLsbD s.params.rstBit.val = false) :
    ExpanderInv t where
  mirrorBits := by rw [hp, hm]; exact hw
  dirBits := by rw [hp]; exact hd
  mirrorAgrees := fun _ hlast => by
    rw [hp, htr, lastOutAnswer_outWrite] at hlast
    rw [hout, hm, Option.some.inj hlast]
    rfl
  driven := fun _ => by rw [hp]; exact hdr

theorem expanderInv_same {s t : State} (h : ExpanderInv s) (hp : t.params = s.params) (hm : t.expMirror = s.expMirror)
    (hi : t.expInitialized = s.expInitialized) (ho : t.expHwOut = s.expHwOut) (hd : t.expHwDir = s.expHwDir)
    (hl : lastOutAnswer s.params t.tr = lastOutAnswer s.params s.tr) : ExpanderInv t where
  mirrorBits := by rw [hp, hm]; exact h.mirrorBits
  dirBits := by rw [hp, hd]; exact h.dirBits
  mirrorAgrees := by rw [hp, hi, hl, ho, hm]; exact h.mirrorAgrees
  driven := by rw [hp, hi, hd]; exact h.driven

theorem expanderInv_expSet {s : State} (h : ExpanderInv s) (pin : Pin) (n : Level) : ExpanderInv (expSet pin n s) := by
  cases hi : s.expInitialized with
  | false => rw [expSet_uninitialised pin n hi]; exact h
  | true =>
    rw [expSet_eq pin n hi]
    exact expanderInv_written (s := s) (es := []) rfl (by rw [List.append_nil]) rfl rfl
      (otherBitsDefault_insertBit h.mirrorBits pin n) h.dirBits (h.driven hi)

theorem expanderInv_expInit {s : State} (h : ExpanderInv s) : ExpanderInv (expInit s).1 := by
  cases h0 : ackAt s 0 with
  | nack =>
    rw [expInit_of_probe_nack h0]
    exact expanderInv_same h rfl rfl rfl rfl rfl (lastOutAnswer_probe _ _ _)
  | ok =>
    cases h1 : ackAt s 1 with
    | nack =>
      rw [expInit_of_dirWrite_nack h0 h1]
      refine expanderInv_same h rfl rfl rfl rfl rfl ?_
      rw [expInitDirWritten, List.append_cons, lastOutAnswer_dirWrite, lastOutAnswer_probe]
    | ok =>
      cases h2 : ackAt s 2 with
      | ok =>
        rw [expInit_of_all_ok h0 h1 h2]
        exact expanderInv_written (s := s) (w := initOutWord s.params) (r := .ok)
          (es := [.i2cProbe s.params.expAddr .ok, dirWrite s.params (initDirWord s.params) .ok])
          rfl (by simp [expInitOutWritten]) rfl rfl (otherBitsDefault_initOutWord _) (otherBitsDefault_initDirWord _)
          (initDirWord_driven _)
      | nack =>
        rw [expInit_of_outWrite_nack h0 h1 h2]
        refine ⟨h.mirrorBits, otherBitsDefault_initDirWord _, fun _ hlast => ?_, fun _ => initDirWord_driven _⟩
        have hnack : lastOutAnswer s.params (s.tr ++ [.i2cProbe s.params.expAddr .ok,
            dirWrite s.params (initDirWord s.params) .ok] ++ [outWrite s.params (initOutWord s.params) .nack]) =
              some .nack := lastOutAnswer_outWrite _ _ _ _
        rw [List.append_assoc] at hnack
        exact nomatch hnack.symm.trans hlast

/-- Each kind of move keeps R119. -/
theorem expanderInv_busMove {s t : State} (h : BusMove s t) (hs : ExpanderInv s) : ExpanderInv t := by
  cases h with
  | quiet h =>
    obtain ⟨es, htr, hq⟩ := h.tr
    exact expanderInv_same hs h.params h.expMirror h.expInitialized h.expHwOut h.expHwDir
      (by rw [htr, lastOutAnswer_quiet hq])
  | program | linked => exact expanderInv_same hs rfl rfl rfl rfl rfl rfl
  | line l n => cases l <;> exact expanderInv_same hs rfl rfl rfl rfl rfl (lastOutAnswer_line _ _ _ _)
  | set pin n => exact expanderInv_expSet hs pin n
  | init => exact expanderInv_expInit hs

/-- Settles O16: an operation that is no bus write is a walk of moves, each of which keeps R119. -/
theorem expanderInvariantIsKept : Obligations.ExpanderInvariantIsKept := fun _ _ _ hi _ hs h =>
  (exec_busMoves hi h).keeps expanderInv_busMove hs

/-! The control trace, the chip and the lines along every step (R14, R17, R18, R112). -/

/-- From `s` to `t` the control trace has grown, and the chip and the lines are what the new events make of them. -/
structure Traced (s t : State) (es : List Event) : Prop where
  params : t.params = s.params
  tr : t.tr = s.tr ++ es
  out : t.expHwOut = chipRegAfter s.params 0x02 s.expHwOut es
  dir : t.expHwDir = chipRegAfter s.params 0x06 s.expHwDir es
  clk : t.clk = padAfter .clk s.clk es
  sda : t.sda = padAfter .sda s.sda es
  bl : t.bl = padAfter .bl s.bl es

theorem Traced.refl (s : State) : Traced s s [] :=
  ⟨rfl, (List.append_nil _).symm, rfl, rfl, rfl, rfl, rfl⟩

theorem Traced.trans {s t u : State} {es fs : List Event} (h : Traced s t es) (k : Traced t u fs) :
    Traced s u (es ++ fs) where
  params := k.params.trans h.params
  tr := by rw [k.tr, h.tr, List.append_assoc]
  out := by rw [k.out, h.out, h.params, chipRegAfter_append]
  dir := by rw [k.dir, h.dir, h.params, chipRegAfter_append]
  clk := by rw [k.clk, h.clk, padAfter_append]
  sda := by rw [k.sda, h.sda, padAfter_append]
  bl := by rw [k.bl, h.bl, padAfter_append]

/-- The same for some events. -/
def Traces (s t : State) : Prop := ∃ es, Traced s t es

theorem Traces.refl (s : State) : Traces s s := ⟨[], .refl s⟩

theorem Traces.trans {s t u : State} (h : Traces s t) (k : Traces t u) : Traces s u := by
  obtain ⟨es, h⟩ := h
  obtain ⟨fs, k⟩ := k
  exact ⟨es ++ fs, h.trans k⟩

theorem Quiet.traces {s t : State} (h : Quiet s t) : Traces s t := by
  obtain ⟨es, htr, hq⟩ := h.tr
  exact ⟨es, h.params, htr, by rw [chipRegAfter_quiet hq, h.expHwOut], by rw [chipRegAfter_quiet hq, h.expHwDir],
    by rw [padAfter_quiet hq, h.clk], by rw [padAfter_quiet hq, h.sda], by rw [padAfter_quiet hq, h.bl]⟩

/-- What one bus write makes of a chip register (R112). -/
theorem chipRegAfter_i2cWrite (p : Params) (reg : Byte) (q : Word16) (a : BusAddr) (r l h : Byte) (k : Ack) :
    chipRegAfter p reg q [.i2cWrite a r l h k] =
      if (a = p.expAddr ∧ k = .ok) ∧ r = reg then joinBytes h l else q := by
  cases k with
  | ok => exact if_congr (by simp) rfl rfl
  | nack => simp [chipRegAfter]

theorem traces_i2cTransaction (a : BusAddr) (r l h : Byte) (s : State) : Traces s (i2cTransaction a r l h s).2 := by
  rw [i2cTransaction_eq]
  exact ⟨_, rfl, rfl, (chipRegAfter_i2cWrite ..).symm, (chipRegAfter_i2cWrite ..).symm, rfl, rfl, rfl⟩

theorem traces_expanderWrite (reg : Byte) (w : Word16) (s : State) : Traces s (expanderWrite reg w s).2 :=
  traces_i2cTransaction _ _ _ _ s

/-- The mirror and its flag are no part of the chip. -/
theorem traces_mirror (s : State) (m : Word16) (i : Bool) : Traces s { s with expMirror := m, expInitialized := i } :=
  ⟨[], rfl, (List.append_nil _).symm, rfl, rfl, rfl, rfl, rfl⟩

theorem traces_expSet (pin : Pin) (n : Level) (s : State) : Traces s (expSet pin n s) := by
  unfold expSet
  split
  · exact (traces_mirror s _ s.expInitialized).trans (traces_expanderWrite _ _ _)
  · exact .refl s

theorem traces_probe (s : State) : Traces s (probe s).2 := by
  rw [probe_eq]
  exact ⟨_, rfl, rfl, rfl, rfl, rfl, rfl, rfl⟩

theorem traces_expInit (s : State) : Traces s (expInit s).1 := by
  have h1 := traces_probe s
  unfold expInit
  rcases e1 : probe s with ⟨_ | _, s1⟩ <;> rw [e1] at h1
  · have h2 := h1.trans (traces_expanderWrite Config.expRegDir (initDirWord s.params) s1)
    dsimp only
    rcases e2 : expanderWrite Config.expRegDir (initDirWord s.params) s1 with ⟨_ | _, s2⟩ <;> rw [e2] at h2
    · have h3 := h2.trans (traces_expanderWrite Config.expRegOut (initOutWord s.params) s2)
      dsimp only
      rcases e3 : expanderWrite Config.expRegOut (initOutWord s.params) s2 with ⟨_ | _, s3⟩ <;> rw [e3] at h3
      · exact h3.trans (traces_mirror s3 _ _)
      · exact h3
    · exact h2
  · exact h1

theorem traces_busMove {s t : State} (h : BusMove s t) : Traces s t := by
  cases h with
  | quiet h => exact h.traces
  | program | linked => exact ⟨[], rfl, (List.append_nil _).symm, rfl, rfl, rfl, rfl, rfl⟩
  | line l n => cases l <;> exact ⟨_, rfl, rfl, rfl, rfl, rfl, rfl, rfl⟩
  | set pin n => exact traces_expSet pin n s
  | init => exact traces_expInit s

theorem BusMoves.traces {s t : State} (h : BusMoves s t) : Traces s t :=
  h.keeps (P := Traces s) (fun k hs => hs.trans (traces_busMove k)) (.refl s)

theorem traces_exec {i : Instr} {s t : State} (h : exec i s = .next t) : Traces s t := by
  cases hi : isBusWrite i with
  | false => exact (exec_busMoves hi h).traces
  | true =>
    obtain ⟨a, r, l, b, rfl⟩ := exec_busWrite hi h
    exact (traces_i2cTransaction a r l b s).trans (quiet_returned _ _).traces

theorem traces_step {s t : State} (h : step s = .next t) : Traces s t :=
  step_rel (R := Traces) (fun _ _ _ _ => ⟨[], rfl, (List.append_nil _).symm, rfl, rfl, rfl, rfl, rfl⟩) .trans
    (fun _ h => (quiet_tick h).traces) (fun _ => ⟨[], rfl, (List.append_nil _).symm, rfl, rfl, rfl, rfl, rfl⟩)
    (fun h => (writerSide_flushContinue h).quiet.traces) traces_exec h

/-- Settles O52: no move changes a parameter. -/
theorem parametersNeverChange : Obligations.ParametersNeverChange := fun _ _ h =>
  (traces_step h).elim fun _ k => k.params

/-- Settles O57: the events of a step make of the chip and the lines what it leaves. -/
theorem traceInvariantIsKept : Obligations.TraceInvariantIsKept := by
  intro s t hs h
  obtain ⟨es, hp, htr, hout, hdir, hclk, hsda, hbl⟩ := traces_step h
  exact ⟨by rw [hout, hs.out, hp, htr, chipRegAfter_append], by rw [hdir, hs.dir, hp, htr, chipRegAfter_append],
    by rw [hclk, hs.clk, htr, padAfter_append], by rw [hsda, hs.sda, htr, padAfter_append],
    by rw [hbl, hs.bl, htr, padAfter_append]⟩

end Sys2Proof.Machine
end

section
/-! PROOF. What nothing clears, the scanout trace, and the framebuffers, along any step (10_state.md R13, R30, R40,
R41). -/

namespace Sys2Proof.Machine

/-- From `s` to `t` the scanout trace has grown, what nothing clears has not been cleared, and a Streamer that is not
running after a failed BRING_UP is still not. -/
structure Latched (s t : State) : Prop where
  scan : s.scan <+: t.scan
  expInitialized : s.expInitialized = true → t.expInitialized = true
  linkConfigured : s.linkConfigured = true → t.linkConfigured = true
  panelReady : s.panelReady = true → t.panelReady = true
  bringupError : ∀ e, s.bringupError = some e → t.bringupError = some e
  stopped : s.bringupError ≠ none → s.tsState ≠ .running → t.tsState ≠ .running ∧ t.scan = s.scan

theorem Latched.trans {s t u : State} (h : Latched s t) (k : Latched t u) : Latched s u where
  scan := h.scan.trans k.scan
  expInitialized := k.expInitialized ∘ h.expInitialized
  linkConfigured := k.linkConfigured ∘ h.linkConfigured
  panelReady := k.panelReady ∘ h.panelReady
  bringupError := fun e he => k.bringupError e (h.bringupError e he)
  stopped := fun he hr => by
    obtain ⟨e, he'⟩ := Option.ne_none_iff_exists'.1 he
    obtain ⟨hr', hscan⟩ := h.stopped he hr
    obtain ⟨hr'', hscan'⟩ := k.stopped (by rw [h.bringupError e he']; nofun) hr'
    exact ⟨hr'', hscan'.trans hscan⟩

/-- Moves that leave these fields alone. -/
theorem latched_still {s t : State} (hsc : t.scan = s.scan) (hi : s.expInitialized = true → t.expInitialized = true)
    (hl : s.linkConfigured = true → t.linkConfigured = true) (hp : t.panelReady = s.panelReady)
    (he : t.bringupError = s.bringupError) (hr : t.tsState = s.tsState) : Latched s t :=
  ⟨by rw [hsc], hi, hl, by rw [hp]; exact id, by rw [he]; exact fun _ h => h,
    by rw [hr, hsc]; exact fun _ h => ⟨h, rfl⟩⟩

theorem LinkSide.latched {s t : State} (h : LinkSide s t) : Latched s t :=
  latched_still h.scan h.expInitialized h.linkConfigured h.panelReady h.bringupError h.tsState

theorem WriterSide.latched {s t : State} (h : WriterSide s t) : Latched s t := by
  obtain ⟨job, f0, f1, vs, pending, rect, res, rfl⟩ := h
  exact latched_still rfl id id rfl rfl rfl

theorem latched_tick {s t : State} (hr : s.tsState = .running) (h : tsTick s = .next t) : Latched s t := by
  obtain ⟨d, -, rfl⟩ := tsTick_eq h
  exact ⟨by rw [List.append_assoc]; exact List.prefix_append _ _, id, id, id, fun _ he => he, fun _ hn => absurd hr hn⟩

theorem latched_returnReady (s : State) : Latched s (returnReady s) :=
  ⟨List.prefix_rfl, id, id, fun _ => rfl, fun _ he => he, fun _ hr => ⟨hr, rfl⟩⟩

theorem latched_finish {s t : State} (h : Latched s t) (e : Option Err) : Latched s (finish (t, e)) := by
  cases e <;> exact h.trans (latched_still rfl id id rfl rfl rfl)

theorem latched_interfaceAbsent (s : State) : Latched s (interfaceAbsent s) := latched_still rfl id id rfl rfl rfl

theorem latched_interfaceLatched (t : Timing) (d : DataPins) (c : CtrlPins) (s : State) :
    Latched s (interfaceLatched t d c s) :=
  ⟨List.prefix_rfl, id, id, id, fun _ he => he, fun _ _ => ⟨nofun, rfl⟩⟩

theorem latched_tsConfigure (t : Timing) (d : DataPins) (c : CtrlPins) (s : State) :
    Latched s (finish (tsConfigure t d c s)) := by
  obtain h | h := tsConfigure_cases t d c s <;> rw [h]
  · exact latched_finish (latched_interfaceAbsent s) _
  · exact latched_finish (latched_interfaceLatched t d c s) _

/-! What can start the Streamer or record an error runs only while no error is recorded. -/

theorem latched_failBringUp {s : State} (h : s.bringupError = none) (e : Err) : Latched s (failBringUp e s) :=
  ⟨List.prefix_rfl, id, id, id, fun _ he => (nomatch h.symm.trans he), fun he => absurd h he⟩

theorem TsStarted.latched {s t : State} {rounds : List AllocRound} (h : TsStarted s t rounds)
    (he : s.bringupError = none) : Latched s t := by
  obtain ⟨as, d, fb0, fb1, -, -, -, -, -, rfl⟩ := h
  exact ⟨List.prefix_rfl, id, id, id, fun _ h => h, fun h => absurd he h⟩

theorem TsStartFailed.latched {s t : State} {rounds : List AllocRound} (h : TsStartFailed s t rounds) :
    Latched s t := by
  obtain ⟨as, d, pool, -, -, rfl⟩ := h
  exact latched_still rfl id id rfl rfl rfl

theorem TsStartFailed.bringupError {s t : State} {rounds : List AllocRound} (h : TsStartFailed s t rounds) :
    t.bringupError = s.bringupError := by
  obtain ⟨as, d, pool, -, -, rfl⟩ := h
  rfl

theorem latched_tsStart {s : State} (he : s.bringupError = none) : Latched s (finish (tsStart s)) := by
  obtain ⟨t, rounds, ⟨h, e⟩ | ⟨h, e⟩⟩ := tsStart_cases s <;> rw [e]
  · exact latched_finish (h.latched he) _
  · exact latched_finish h.latched _

theorem latched_bringUpStream {s : State} (he : s.bringupError = none) : Latched s (bringUpStream s) := by
  have hl : Latched s (bringUpLatched s) := latched_interfaceLatched _ _ _ s
  obtain h | ⟨t, rounds, ht, h⟩ | ⟨t, rounds, ht, h⟩ := bringUpStream_cases s <;> rw [h]
  · exact (latched_interfaceAbsent s).trans (latched_failBringUp (s := interfaceAbsent s) he _)
  · exact (hl.trans ht.latched).trans (latched_failBringUp (ht.bringupError.trans he) _)
  · exact (hl.trans (ht.latched he)).trans (latched_still rfl id id rfl rfl rfl)

theorem latched_bringUp {s t : State} (h : exec .bringUp s = .next t) : Latched s t := by
  obtain ⟨-, -, he, ⟨u, hu, rfl⟩ | ⟨-, -, u, hu, -, rfl⟩⟩ := exec_bringUp_next h <;>
    have hl := linkSide_of_expInit hu
  · exact hl.latched.trans (latched_failBringUp (hl.bringupError.trans he) _)
  · have hl' := hl.trans (linkSide_bringUpPanel u)
    exact hl'.latched.trans (latched_bringUpStream (hl'.bringupError.trans he))

theorem latched_exec {i : Instr} {s t : State} (h : exec i s = .next t) : Latched s t := by
  cases hi : streamSide i with
  | false => exact (exec_linkSide hi h).latched
  | true =>
    cases i with
    | tsConfigure a d c =>
      obtain ⟨-, -, rfl⟩ := execTsConfigure_next h
      exact latched_tsConfigure a d c s
    | tsStart =>
      obtain ⟨-, he, rfl⟩ := execTsStart_next h
      exact latched_tsStart he
    | tsNotify r =>
      obtain ⟨-, rfl⟩ := execTsNotify_next h
      exact (writerSide_tsNotify r s).latched
    | tsTick =>
      obtain ⟨hr, ht⟩ := exec_tsTick_next h
      exact latched_tick hr ht
    | flush r ps => exact (writerSide_execFlush h).latched
    | bringUp => exact latched_bringUp h
    | _ => cases hi

theorem latched_step {s t : State} (h : step s = .next t) : Latched s t :=
  step_rel (fun _ _ _ _ => latched_still rfl id id rfl rfl rfl) .trans latched_tick (fun _ => latched_returnReady _)
    (fun h => (writerSide_flushContinue h).latched) latched_exec h

/-- Settles O53: the control trace by the events of a step, the scanout trace by what a step latches. -/
theorem tracesOnlyGrow : Obligations.TracesOnlyGrow := by
  intro s t h
  obtain ⟨es, k⟩ := traces_step h
  exact ⟨k.tr ▸ List.prefix_append _ _, (latched_step h).scan⟩

/-- Settles O54: what a step latches, and for RUNNING what a step does to the scan. -/
theorem latchedStatusStays : Obligations.LatchedStatusStays := by
  intro s t h
  obtain ⟨-, hinit, hlink, hready, herr, hstop⟩ := latched_step h
  exact ⟨hinit, hlink, hready, herr, fun hr => ⟨(step_scanStep hr h).running, (step_scanStep hr h).tsCfg⟩, hstop⟩

/-- Settles O55: the other operations of the streaming side, one by one; the rest is of the link side. -/
theorem onlyFlushAndStartTouchFramebuffers : Obligations.OnlyFlushAndStartTouchFramebuffers := by
  intro i s t hi h
  cases hs : streamSide i with
  | false => exact ⟨(exec_linkSide hs h).fb0, (exec_linkSide hs h).fb1⟩
  | true =>
    cases i with
    | tsConfigure a d c =>
      obtain ⟨-, -, rfl⟩ := execTsConfigure_next h
      obtain h | h := tsConfigure_cases a d c s <;> rw [h] <;> exact ⟨rfl, rfl⟩
    | tsNotify r =>
      obtain ⟨-, rfl⟩ := execTsNotify_next h
      rw [tsNotify_eq]
      exact ⟨rfl, rfl⟩
    | tsTick =>
      obtain ⟨d, -, rfl⟩ := tsTick_eq (exec_tsTick_next h).2
      exact ⟨rfl, rfl⟩
    | tsStart | flush _ _ | bringUp => cases hi
    | _ => cases hs

end Sys2Proof.Machine
end

section
/-! PROOF. The part of the system invariant that is about the board: the mirror, the three lines and the programmer
(10_state.md sections 2 to 4), kept by every operation. -/

namespace Sys2Proof.Machine

/-- No level before LINK_INIT, a level on each line after (R17, R18). -/
def PadsAgree (s : State) : Prop :=
  if s.linkConfigured then (∃ a b c, s.clk = .driven a ∧ s.sda = .driven b ∧ s.bl = .driven c)
    else s.clk = .unconfigured ∧ s.sda = .unconfigured ∧ s.bl = .unconfigured

/-- The index stays in the table, and a finished PROG_RUN has come to its end (R25, R27). -/
def ProgramInRange (s : State) : Prop :=
  s.ppIndex ≤ s.params.table.length ∧
    (s.ppDone = true → s.ppIndex = s.params.table.length ∧ s.ppState = .displaying)

/-- From `s` to `t` the board's part of the system invariant is kept, and a finished PROG_RUN stays finished. -/
structure BoardKept (s t : State) : Prop where
  mirror : otherBitsDefault s.params s.expMirror s.params.expOutDefault →
    otherBitsDefault t.params t.expMirror t.params.expOutDefault
  pads : PadsAgree s → PadsAgree t
  program : ProgramInRange s → ProgramInRange t
  done : s.ppDone = true → t.ppDone = true

theorem BoardKept.trans {s t u : State} (h : BoardKept s t) (k : BoardKept t u) : BoardKept s u :=
  ⟨k.mirror ∘ h.mirror, k.pads ∘ h.pads, k.program ∘ h.program, k.done ∘ h.done⟩

/-! The mirror: only the two pins' bits of it are ever written. -/

theorem mirror_busMove {s t : State} (h : BusMove s t)
    (hs : otherBitsDefault s.params s.expMirror s.params.expOutDefault) :
    otherBitsDefault t.params t.expMirror t.params.expOutDefault := by
  cases h with
  | quiet h => rw [h.params, h.expMirror]; exact hs
  | program | linked => exact hs
  | line l n => cases l <;> exact hs
  | set pin n =>
    cases hi : s.expInitialized with
    | false => rw [expSet_uninitialised pin n hi]; exact hs
    | true => rw [expSet_eq pin n hi]; exact otherBitsDefault_insertBit hs pin n
  | init =>
    obtain ⟨o, d, es, as, k, e⟩ | ⟨o, d, es, as, k, e⟩ := expInit_cases s <;> rw [e]
    · exact hs
    · exact otherBitsDefault_initOutWord s.params

/-! The lines: a level once driven stays a level. -/

/-- Each of the three lines carries a level. -/
def LinesDriven (s : State) : Prop := ∃ a b c, s.clk = .driven a ∧ s.sda = .driven b ∧ s.bl = .driven c

theorem linesDriven_busMove {s t : State} (h : BusMove s t) (hs : LinesDriven s) : LinesDriven t := by
  obtain ⟨a, b, c, hc, hd, hb⟩ := hs
  cases h with
  | quiet h => exact ⟨a, b, c, h.clk.trans hc, h.sda.trans hd, h.bl.trans hb⟩
  | program | linked => exact ⟨a, b, c, hc, hd, hb⟩
  | line l n =>
    cases l with
    | clk => exact ⟨n, b, c, rfl, hd, hb⟩
    | sda => exact ⟨a, n, c, hc, rfl, hb⟩
    | bl => exact ⟨a, b, n, hc, hd, rfl⟩
  | set pin n =>
    obtain ⟨m, o, es, as, k, e⟩ := expSet_frame pin n s
    rw [e]
    exact ⟨a, b, c, hc, hd, hb⟩
  | init =>
    obtain ⟨o, d, es, as, k, e⟩ | ⟨o, d, es, as, k, e⟩ := expInit_cases s <;> rw [e] <;> exact ⟨a, b, c, hc, hd, hb⟩

theorem padsAgree_of_linked {s : State} (h : s.linkConfigured = true) : PadsAgree s ↔ LinesDriven s := by
  rw [PadsAgree, if_pos h]
  exact Iff.rfl

/-! The programmer's own state, and the link's flag, which PROG_RUN and LINK_INIT alone write. -/

/-- From `s` to `t` the programmer's state and the link's flag have not changed. -/
structure SameProgram (s t : State) : Prop where
  params : t.params = s.params
  linkConfigured : t.linkConfigured = s.linkConfigured
  ppIndex : t.ppIndex = s.ppIndex
  ppState : t.ppState = s.ppState
  ppDone : t.ppDone = s.ppDone

theorem SameProgram.inRange {s t : State} (h : SameProgram s t) (hs : ProgramInRange s) : ProgramInRange t := by
  rw [ProgramInRange, h.params, h.ppIndex, h.ppState, h.ppDone]
  exact hs

theorem Quiet.sameProgram {s t : State} (h : Quiet s t) : SameProgram s t :=
  ⟨h.params, h.linkConfigured, h.ppIndex, h.ppState, h.ppDone⟩

theorem Sends.sameProgram {shape : List Event} {s t : State} (h : Sends shape s t) : SameProgram s t := by
  obtain ⟨es, a, d, -, rfl⟩ := h
  exact ⟨rfl, rfl, rfl, rfl, rfl⟩

theorem sameProgram_lineSet (l : Line) (n : Level) (s : State) : SameProgram s (lineSet l n s) := by
  cases l <;> exact ⟨rfl, rfl, rfl, rfl, rfl⟩

/-- With the link configured, moves of the bus and the lines keep the board. -/
theorem boardKept_linked {s t : State} (hl : s.linkConfigured = true) (hb : BusMoves s t) (h : SameProgram s t) :
    BoardKept s t where
  mirror := hb.keeps mirror_busMove
  pads := by
    rw [padsAgree_of_linked hl, padsAgree_of_linked (h.linkConfigured.trans hl)]
    exact hb.keeps linesDriven_busMove
  program := h.inRange
  done := fun hd => h.ppDone.trans hd

theorem boardKept_quiet {s t : State} (h : Quiet s t) : BoardKept s t where
  mirror := mirror_busMove (.quiet h)
  pads := by
    rw [PadsAgree, PadsAgree, h.linkConfigured, h.clk, h.sda, h.bl]
    exact id
  program := h.sameProgram.inRange
  done := fun hd => h.ppDone.trans hd

/-! ExpanderBus. -/

/-- The operations of ExpanderBus change these fields only. -/
def ExpanderSide (s t : State) : Prop :=
  ∃ m o d i es as k res, t = { s with
    expMirror := m, expHwOut := o, expHwDir := d, expInitialized := i, tr := s.tr ++ es, acks := as, draws := k,
    lastResult := res }

theorem expanderSide_expSet (pin : Pin) (n : Level) (s : State) : ExpanderSide s (expSet pin n s) := by
  obtain ⟨m, o, es, as, k, h⟩ := expSet_frame pin n s
  rw [h]
  exact ⟨_, _, _, _, _, _, _, _, rfl⟩

theorem expanderSide_expInit (s : State) : ExpanderSide s (expInit s).1 := by
  obtain ⟨o, d, es, as, k, h⟩ | ⟨o, d, es, as, k, h⟩ := expInit_cases s <;> rw [h] <;>
    exact ⟨_, _, _, _, _, _, _, _, rfl⟩

theorem expanderSide_i2cTransaction (a : BusAddr) (r l h : Byte) (s : State) :
    ExpanderSide s (i2cTransaction a r l h s).2 := by
  rw [i2cTransaction_eq]
  exact ⟨_, _, _, _, _, _, _, _, rfl⟩

theorem ExpanderSide.boardKept {s t : State} (h : ExpanderSide s t)
    (hm : otherBitsDefault s.params s.expMirror s.params.expOutDefault →
      otherBitsDefault t.params t.expMirror t.params.expOutDefault) : BoardKept s t := by
  obtain ⟨m, o, d, i, es, as, k, res, rfl⟩ := h
  exact ⟨hm, id, id, id⟩

theorem boardKept_expSet (pin : Pin) (n : Level) (s : State) : BoardKept s (expSet pin n s) :=
  (expanderSide_expSet pin n s).boardKept (mirror_busMove (.set pin n s))

theorem boardKept_expInit (s : State) : BoardKept s (expInit s).1 :=
  (expanderSide_expInit s).boardKept (mirror_busMove (.init s))

theorem boardKept_i2cTransaction (a : BusAddr) (r l h : Byte) (s : State) :
    BoardKept s (i2cTransaction a r l h s).2 :=
  (expanderSide_i2cTransaction a r l h s).boardKept (by rw [i2cTransaction_eq]; exact id)

/-! LINK_INIT and PROG_RUN. -/

theorem boardKept_linkInit (s : State) : BoardKept s (linkInit s) where
  mirror := (busMoves_linkInit s).keeps mirror_busMove
  pads := fun _ => by
    rw [linkInit_eq]
    exact ⟨false, false, false, rfl, rfl, rfl⟩
  program := by rw [linkInit_eq]; exact id
  done := by rw [linkInit_eq]; exact id

theorem boardKept_progRun {s : State} (hp : paramsWellFormed s.params = true) (hl : s.linkConfigured = true) :
    BoardKept s (progRun s) where
  mirror := (busMoves_progRun s).keeps mirror_busMove
  pads := by
    rw [padsAgree_of_linked hl, padsAgree_of_linked ((linkSide_progRun s).linkConfigured hl)]
    exact (busMoves_progRun s).keeps linesDriven_busMove
  program := fun _ => by
    obtain ⟨-, -, -, hmilestones, -⟩ := paramsWellFormed_iff.1 hp
    obtain ⟨es, a, d, -, h⟩ := progRun_eq hmilestones
    rw [h]
    exact ⟨Nat.le_refl _, fun _ => ⟨rfl, rfl⟩⟩
  done := fun _ => rfl

/-! The operations. -/

theorem boardKept_returned {s t : State} (h : BoardKept s t) (r : OpResult) : BoardKept s (returned r t) :=
  h.trans (boardKept_quiet (quiet_returned r t))

theorem boardKept_finish {s : State} {x : State × Option Err} (h : BoardKept s x.1) : BoardKept s (finish x) := by
  rcases x with ⟨u, _ | e⟩
  · exact boardKept_returned h _
  · exact boardKept_returned h _

theorem boardKept_whenLinked {f : State → State} {s t : State} (hf : BusMoves s (f s)) (hs : SameProgram s (f s))
    (h : whenLinked f s = .next t) : BoardKept s t := by
  obtain ⟨hl, rfl⟩ := whenLinked_next.1 h
  exact boardKept_returned (boardKept_linked hl hf hs) _

/-- Every operation but BRING_UP keeps the board. -/
theorem exec_boardKept {i : Instr} {s t : State} (hb : i ≠ .bringUp) (hp : paramsWellFormed s.params = true)
    (h : exec i s = .next t) : BoardKept s t := by
  cases i with
  | i2cWrite _ _ _ _ _ | i2cWriteDir _ _ _ _ | i2cWriteOut _ _ _ _ =>
    obtain ⟨a, r, l, b, rfl⟩ := exec_busWrite rfl h
    exact boardKept_returned (boardKept_i2cTransaction a r l b s) _
  | frameCmd p | frameData p | sendData p | xfer m p =>
    exact boardKept_whenLinked (busMoves_xfer _ _ _) (sends_xfer _ _ _).sameProgram h
  | splitCmd a b =>
    exact boardKept_whenLinked (f := fun u => xfer Config.modeData b (xfer Config.modeCmd a u))
      ((busMoves_xfer _ _ _).trans (busMoves_xfer _ _ _)) ((sends_xfer _ _ _).trans (sends_xfer _ _ _)).sameProgram h
  | sendCommand c =>
    exact boardKept_whenLinked ((busMoves_xfer _ _ _).trans (busMoves_xfer _ _ _))
      ((sends_xfer _ _ _).trans (sends_xfer _ _ _)).sameProgram h
  | entryWrite op c ps | regopWrite op c ps | writeReg c ps =>
    exact boardKept_whenLinked (busMoves_replayEntry (.write .setParam c ps) s)
      (sends_replayEntry (.write .setParam c ps) s).sameProgram h
  | entryDelay n | regopDelay n | delayUs n | delayMs n =>
    exact boardKept_whenLinked (.single (.quiet (quiet_emit rfl s))) (quiet_emit rfl s).sameProgram h
  | lineSet l n => exact boardKept_whenLinked (.single (.line l n s)) (sameProgram_lineSet l n s) h
  | clk n => exact boardKept_whenLinked (.single (.line .clk n s)) (sameProgram_lineSet .clk n s) h
  | sda n => exact boardKept_whenLinked (.single (.line .sda n s)) (sameProgram_lineSet .sda n s) h
  | bl n => exact boardKept_whenLinked (.single (.line .bl n s)) (sameProgram_lineSet .bl n s) h
  | backlightOn =>
    exact boardKept_whenLinked (.single (.line .bl Config.blOn s)) (sameProgram_lineSet .bl _ s) h
  | panelReset => exact boardKept_whenLinked (busMoves_panelReset s) (sends_panelReset s).sameProgram h
  | progRun =>
    obtain ⟨hl, rfl⟩ := whenLinked_next.1 h
    exact boardKept_returned (boardKept_progRun hp hl) _
  | linkInit => cases h; exact boardKept_returned (boardKept_linkInit s) _
  | expInit => cases h; exact boardKept_finish (boardKept_expInit s)
  | expSet pin n => cases h; exact boardKept_returned (boardKept_expSet pin n s) _
  | cs n => cases h; exact boardKept_returned (boardKept_expSet .cs n s) _
  | rst n => cases h; exact boardKept_returned (boardKept_expSet .rst n s) _
  | expGet pin => cases h; exact boardKept_quiet (quiet_returned _ s)
  | tsConfigure _ _ _ | tsStart | tsNotify _ | tsTick | flush _ _ => exact boardKept_quiet (exec_quiet h rfl nofun)
  | bringUp => exact absurd rfl hb

/-- Stages 2 to 4 of BRING_UP keep the board (R220). -/
theorem boardKept_bringUpPanel {s : State} (hp : paramsWellFormed s.params = true) : BoardKept s (bringUpPanel s) := by
  have hp' : (linkInit s).params = s.params := (linkSide_linkInit s).params
  have hl : (linkInit s).linkConfigured = true := rfl
  exact ((boardKept_linkInit s).trans (boardKept_progRun (hp'.symm ▸ hp) hl)).trans
    (boardKept_linked ((linkSide_progRun _).linkConfigured hl) (.single (.line .bl Config.blOn _))
      (sameProgram_lineSet .bl _ _))

end Sys2Proof.Machine
end

section
/-! PROOF. The invariants after reset, and the system invariant along every step. -/

namespace Sys2Proof.Machine

/-- Settles O59: each clause of the three invariants, read off the reset state. -/
theorem resetMeetsTheInvariants : Obligations.ResetMeetsTheInvariants := by
  refine ⟨fun p hp => ⟨?_, ⟨rfl, rfl, rfl, rfl, rfl⟩, ⟨fun _ _ _ => rfl, fun _ _ _ => rfl, nofun, nofun⟩⟩, by decide,
    by decide⟩
  exact {
    params := hp
    mirror := fun _ _ _ => rfl
    pads := ⟨rfl, rfl, rfl⟩
    index := Nat.zero_le _
    done := nofun
    config := fun h => absurd rfl h
    scanning := nofun
    buffers := nofun
    singleMode := fun _ => ⟨rfl, rfl⟩
    doubleMode := fun _ => rfl
    memory := optFbWf_resetWith p
    ready := nofun
    returning := nofun
    flight := nofun
    noFlip := nofun }

/-! The moves that keep the streaming side. -/

theorem sysInv_linkSide {s t : State} (h : SysInv s) (l : LinkSide s t) (b : BoardKept s t) : SysInv t where
  params := by rw [l.params]; exact h.params
  mirror := b.mirror h.mirror
  pads := b.pads h.pads
  index := (b.program ⟨h.index, h.done⟩).1
  done := (b.program ⟨h.index, h.done⟩).2
  config := by rw [l.tsState, l.tsCfg]; exact h.config
  scanning := by rw [l.tsState, l.tsCfg, l.hcnt, l.vcnt]; exact h.scanning
  buffers := by rw [l.tsState, l.params, l.fb0, l.fb1]; exact h.buffers
  singleMode := by rw [l.params, l.front, l.flipPending]; exact h.singleMode
  doubleMode := by rw [l.params, l.earlierViews]; exact h.doubleMode
  memory := by rw [l.fb0, l.fb1]; exact h.memory
  ready := fun hr => by
    obtain ⟨hrun, hinit, hlink, hdone, herr⟩ := h.ready (l.panelReady ▸ hr)
    exact ⟨l.tsState.trans hrun, l.expInitialized hinit, l.linkConfigured hlink, b.done hdone,
      l.bringupError.trans herr⟩
  returning := fun hr => by
    obtain ⟨hrun, hinit, hlink, hdone, herr, hready⟩ := h.returning (l.bringUpReturning ▸ hr)
    exact ⟨l.tsState.trans hrun, l.expInitialized hinit, l.linkConfigured hlink, b.done hdone,
      l.bringupError.trans herr, l.panelReady.trans hready⟩
  flight := by rw [l.flush, l.panelReady]; exact h.flight
  noFlip := by rw [l.flush, l.flipPending]; exact h.noFlip

/-- Neither the schedule, the answers to come nor the last result is in the invariant. -/
theorem sysInv_schedule {s : State} (h : SysInv s) (ts : List Turn) (d : Nat) (qs : List Request)
    (r : Option OpResult) : SysInv { s with turns := ts, draws := d, requests := qs, lastResult := r } :=
  ⟨h.params, h.mirror, h.pads, h.index, h.done, h.config, h.scanning, h.buffers, h.singleMode, h.doubleMode, h.memory,
    h.ready, h.returning, h.flight, h.noFlip⟩

/-- Before RUNNING there is no handle, no return to come and no FLUSH in flight. -/
theorem SysInv.idle {s : State} (h : SysInv s) (hr : s.tsState ≠ .running) :
    s.panelReady = false ∧ s.bringUpReturning = false ∧ s.flush = none := by
  have hready : s.panelReady = false := Bool.eq_false_iff.2 fun e => hr (h.ready e).1
  refine ⟨hready, Bool.eq_false_iff.2 fun e => hr (h.returning e).1,
    Option.eq_none_iff_forall_ne_some.2 fun job e => ?_⟩
  exact nomatch hready.symm.trans (h.flight job e).1

/-! The Streamer. -/

theorem flips_of_single {s : State} (h : s.params.streamMode = .single) : flips s = false := by
  rw [flips, h]
  simp

theorem sysInv_tick {s t : State} (h : SysInv s) (hr : s.tsState = .running) (ht : tsTick s = .next t) :
    SysInv t := by
  obtain ⟨d, -, rfl⟩ := tsTick_eq ht
  obtain ⟨hh, hv⟩ := h.scanning hr
  refine ⟨h.params, h.mirror, h.pads, h.index, h.done, h.config, fun _ => nextPosition_lt hh hv, h.buffers,
    fun hm => ?_, fun hm => ?_, h.memory, h.ready, h.returning, h.flight, fun job hj hph => ?_⟩
  · show frontAfter s = .zero ∧ (if flips s then false else s.flipPending) = false
    rw [frontAfter, flips_of_single (s := s) hm]
    exact h.singleMode hm
  · exact (ite_eq_left_iff.2 fun _ => (h.doubleMode hm)).trans rfl
  · exact ite_eq_left_iff.2 fun _ => h.noFlip job hj hph

theorem sysInv_interfaceAbsent {s : State} (h : SysInv s) : SysInv (interfaceAbsent s) :=
  ⟨h.params, h.mirror, h.pads, h.index, h.done, h.config, h.scanning, h.buffers, h.singleMode, h.doubleMode, h.memory,
    h.ready, h.returning, h.flight, h.noFlip⟩

theorem sysInv_interfaceLatched {s : State} (h : SysInv s) (hst : s.tsState = .unconfigured) {t : Timing} {d : DataPins}
    {c : CtrlPins} (hwf : configWellFormed t d c = true) : SysInv (interfaceLatched t d c s) := by
  obtain ⟨hready, hret, hflush⟩ := h.idle (by rw [hst]; nofun)
  exact ⟨h.params, h.mirror, h.pads, h.index, h.done, fun _ => hwf, nofun, nofun, h.singleMode, h.doubleMode, h.memory,
    fun e => (nomatch hready.symm.trans e), fun e => (nomatch hret.symm.trans e), h.flight, h.noFlip⟩

theorem TsStarted.sysInv {s t : State} {rounds : List AllocRound} (h : TsStarted s t rounds) (hs : SysInv s)
    (hst : s.tsState = .configured) : SysInv t := by
  obtain ⟨hready, hret, hflush⟩ := hs.idle (by rw [hst]; nofun)
  obtain ⟨as, d, fb0, fb1, -, -, hfb0, hsingle, hdouble, rfl⟩ := h
  have hwf0 : fbWf fb0 = true := by simp [fbWf, hfb0, memWf]
  have hwf1 : optFbWf fb1 = true := by
    cases hm : s.params.streamMode with
    | single => rw [hsingle hm]; exact hs.memory.2
    | double =>
      obtain ⟨fb, rfl, hfb⟩ := hdouble hm
      simp [optFbWf, fbWf, hfb, memWf]
  exact ⟨hs.params, hs.mirror, hs.pads, hs.index, hs.done, fun _ => hs.config (by rw [hst]; nofun),
    fun _ => ⟨htotal_pos _, vtotal_pos _⟩,
    fun _ => ⟨rfl, fun hm => by obtain ⟨fb, rfl, -⟩ := hdouble hm; rfl⟩, fun _ => ⟨rfl, rfl⟩, fun _ => rfl,
    ⟨hwf0, hwf1⟩,
    fun e => (nomatch hready.symm.trans e), fun e => (nomatch hret.symm.trans e), hs.flight, fun _ _ _ => rfl⟩

theorem TsStartFailed.sysInv {s t : State} {rounds : List AllocRound} (h : TsStartFailed s t rounds) (hs : SysInv s)
    (hst : s.tsState = .configured) : SysInv t := by
  obtain ⟨as, d, pool, -, -, rfl⟩ := h
  exact ⟨hs.params, hs.mirror, hs.pads, hs.index, hs.done, hs.config, hs.scanning, fun e => (nomatch hst.symm.trans e),
    hs.singleMode, hs.doubleMode, ⟨rfl, rfl⟩, hs.ready, hs.returning, hs.flight, hs.noFlip⟩

/-! The orchestrator: BRING_UP. -/

theorem sysInv_failBringUp {s : State} (h : SysInv s) (hready : s.panelReady = false)
    (hret : s.bringUpReturning = false) (e : Err) : SysInv (failBringUp e s) :=
  ⟨h.params, h.mirror, h.pads, h.index, h.done, h.config, h.scanning, h.buffers, h.singleMode, h.doubleMode, h.memory,
    fun e => (nomatch hready.symm.trans e), fun e => (nomatch hret.symm.trans e), h.flight, h.noFlip⟩

theorem sysInv_returnReady {s : State} (h : SysInv s) (hret : s.bringUpReturning = true) : SysInv (returnReady s) := by
  obtain ⟨hrun, hinit, hlink, hdone, herr, -⟩ := h.returning hret
  exact ⟨h.params, h.mirror, h.pads, h.index, h.done, h.config, h.scanning, h.buffers, h.singleMode, h.doubleMode,
    h.memory, fun _ => ⟨hrun, hinit, hlink, hdone, herr⟩, nofun, fun job hj => ⟨rfl, (h.flight job hj).2⟩, h.noFlip⟩

/-- Stage 5 of BRING_UP, with the stages before it done. -/
theorem sysInv_bringUpStream {s : State} (h : SysInv s) (hst : s.tsState = .unconfigured)
    (hwf : configWellFormed (timingOf s.params) s.params.dataPins s.params.ctrlPins = true)
    (hinit : s.expInitialized = true) (hlink : s.linkConfigured = true) (hdone : s.ppDone = true)
    (herr : s.bringupError = none) : SysInv (bringUpStream s) := by
  obtain ⟨hready, hret, hflush⟩ := h.idle (by rw [hst]; nofun)
  have hl : SysInv (bringUpLatched s) := sysInv_interfaceLatched h hst hwf
  obtain e | ⟨t, rounds, ht, e⟩ | ⟨t, rounds, ht, e⟩ := bringUpStream_cases s <;> rw [e]
  · exact sysInv_failBringUp (sysInv_interfaceAbsent h) hready hret _
  · have hs := ht.sysInv hl rfl
    obtain ⟨as, d, pool, -, -, rfl⟩ := ht
    exact sysInv_failBringUp hs hready hret _
  · have k := ht.sysInv hl rfl
    obtain ⟨as, d, fb0, fb1, -, -, -, -, -, rfl⟩ := ht
    exact ⟨k.params, k.mirror, k.pads, k.index, k.done, k.config, k.scanning, k.buffers, k.singleMode, k.doubleMode,
      k.memory, k.ready, fun _ => ⟨rfl, hinit, hlink, hdone, herr, hready⟩, k.flight, k.noFlip⟩

theorem linkConfigured_bringUpPanel (s : State) : (bringUpPanel s).linkConfigured = true :=
  (linkSide_backlightOn _).linkConfigured ((linkSide_progRun (linkInit s)).linkConfigured rfl)

theorem sysInv_bringUp {s t : State} (h : SysInv s) (he : exec .bringUp s = .next t) : SysInv t := by
  obtain ⟨hready, hret, herr, ⟨u, hu, rfl⟩ | ⟨hst, hwf, u, hu, hinit, rfl⟩⟩ := exec_bringUp_next he <;>
    have hl := linkSide_of_expInit hu <;>
    have hb : BoardKept s u := (by have hb := boardKept_expInit s; rwa [hu] at hb) <;>
    have hsu := sysInv_linkSide h hl hb
  · exact sysInv_failBringUp hsu (hl.panelReady.trans hready) (hl.bringUpReturning.trans hret) _
  · have hl' := hl.trans (linkSide_bringUpPanel u)
    have hs := sysInv_linkSide hsu (linkSide_bringUpPanel u) (boardKept_bringUpPanel hsu.params)
    exact sysInv_bringUpStream hs (hl'.tsState.trans hst) (by rw [hl'.params]; exact hwf)
      ((linkSide_bringUpPanel u).expInitialized hinit) (linkConfigured_bringUpPanel u) rfl (hl'.bringupError.trans herr)

/-! The orchestrator: FLUSH and the Writer's moves. -/

theorem tsNotifyRefusal_eq_none {r : Rect} {s : State} : tsNotifyRefusal r s = none ↔
    s.tsState = .running ∧ rectValid r = true ∧ (s.params.streamMode = .double → s.flipPending = false) := by
  by_cases hr : s.tsState = .running
  · cases hv : rectValid r with
    | false => simp [tsNotifyRefusal_of_not_rectValid hr hv]
    | true =>
      cases hm : s.params.streamMode with
      | single => simp [tsNotifyRefusal_single hr hv hm, hr]
      | double => simp [tsNotifyRefusal_double hr hv hm, hr]
  · simp [tsNotifyRefusal_of_not_running r hr, hr]

theorem SysInv.buffer_wf {s : State} (h : SysInv s) {k : Buffer} {fb : Framebuffer} (hb : bufferOf s k = some fb) :
    fbWf fb = true := by
  obtain ⟨h0, h1⟩ := h.memory
  cases k with
  | zero => rw [show s.fb0 = some fb from hb] at h0; exact h0
  | one => rw [show s.fb1 = some fb from hb] at h1; exact h1

/-- What a move of FLUSH's must keep for the invariant to be kept. -/
theorem sysInv_writerSide {s : State} (h : SysInv s) {job : Option FlushJob} {f0 f1 : Option Framebuffer}
    {vs : List FbView} {pending : Bool} {rect : Rect} {res : Option OpResult}
    (hf0 : s.fb0.isSome = true → f0.isSome = true) (hf1 : s.fb1.isSome = true → f1.isSome = true)
    (hmem : optFbWf f0 = true ∧ optFbWf f1 = true) (hsingle : s.params.streamMode = .single → pending = false)
    (hdouble : s.params.streamMode = .double → vs = [])
    (hflight : ∀ j, job = some j → s.panelReady = true ∧ rectValid j.rect = true ∧ fbWf j.before = true)
    (hnoFlip : ∀ j, job = some j → j.phase = .notify → pending = false) :
    SysInv { s with
      flush := job, fb0 := f0, fb1 := f1, earlierViews := vs, flipPending := pending, flipRect := rect,
      lastResult := res } :=
  ⟨h.params, h.mirror, h.pads, h.index, h.done, h.config, h.scanning,
    fun hr => ⟨hf0 (h.buffers hr).1, fun hm => hf1 ((h.buffers hr).2 hm)⟩,
    fun hm => ⟨(h.singleMode hm).1, hsingle hm⟩, hdouble, hmem, h.ready, h.returning, hflight, hnoFlip⟩

theorem sysInv_setBuffer {s : State} (h : SysInv s) (k : Buffer) {g : Framebuffer}
    (hg : fbWf g = true) : SysInv (setBuffer s k g) := by
  have hmem := optFbWf_setBuffer (k := k) h.memory.1 h.memory.2 hg
  rw [setBuffer_eq] at hmem ⊢
  exact sysInv_writerSide h (fun e => by split <;> trivial) (fun e => by split <;> trivial) hmem
    (fun hm => (h.singleMode hm).2) h.doubleMode h.flight h.noFlip

theorem sysInv_startFlush {s : State} (h : SysInv s) {r : Rect} (ps : List Pixel) {fb : Framebuffer}
    (hready : s.panelReady = true) (hfb : bufferOf s (stagingOf s) = some fb) (hr : tsNotifyRefusal r s = none) :
    SysInv (startFlush r ps fb s) := by
  obtain ⟨-, hvalid, hflip⟩ := tsNotifyRefusal_eq_none.1 hr
  rw [startFlush_eq, keepView_eq]
  refine sysInv_setBuffer (sysInv_writerSide h id id h.memory (fun hm => (h.singleMode hm).2) (fun hm => ?_) ?_ ?_) _
    (fbWf_flush ps (h.buffer_wf hfb) hvalid)
  · rw [hm]
    exact h.doubleMode hm
  · rintro job ⟨⟩
    exact ⟨hready, hvalid, h.buffer_wf hfb⟩
  · rintro job ⟨⟩ -
    cases hm : s.params.streamMode with
    | single => exact (h.singleMode hm).2
    | double => exact hflip hm

theorem sysInv_flush {s t : State} (h : SysInv s) {r : Rect} {ps : List Pixel}
    (he : exec (.flush r ps) s = .next t) : SysInv t := by
  obtain ⟨hready, -, ⟨-, rfl⟩ | ⟨fb, -, -, hfb, hr, rfl⟩⟩ := execFlush_next he
  · exact sysInv_schedule h s.turns s.draws s.requests _
  · exact sysInv_startFlush h ps hready hfb hr

/-- TS_NOTIFY, where no FLUSH waits to call it (R205). -/
theorem sysInv_tsNotify {s : State} (h : SysInv s) (r : Rect) {job : Option FlushJob} (res : Option OpResult)
    (hflight : ∀ j, job = some j → s.panelReady = true ∧ rectValid j.rect = true ∧ fbWf j.before = true)
    (hphase : ∀ j, job = some j → j.phase ≠ .notify) :
    SysInv { tsNotify r s with flush := job, lastResult := res } := by
  rw [tsNotify_eq]
  exact sysInv_writerSide h id id h.memory (fun hm => by rw [hm]; exact (h.singleMode hm).2) h.doubleMode hflight
    fun j hj hn => absurd hn (hphase j hj)

theorem afterNotify_ne_notify (m : StreamMode) : afterNotify m ≠ .notify := by cases m <;> nofun

theorem sysInv_flushContinue {s t : State} (h : SysInv s) (he : flushContinue s = .next t) : SysInv t := by
  obtain rfl | ⟨job, hj, -, -, rfl⟩ | ⟨job, f, g, hj, -, -, -, hg, rfl⟩ | ⟨job, fb, -, -, hm, -, rfl⟩ |
    ⟨_, -, -, -, rfl⟩ :=
    flushContinue_next he
  · exact h
  · refine sysInv_tsNotify h job.rect (tsNotify job.rect s).lastResult ?_ ?_
    · rintro j ⟨⟩
      exact h.flight job hj
    · rintro j ⟨⟩
      exact afterNotify_ne_notify s.params.streamMode
  · have hcopy := sysInv_setBuffer h (stagingOf s) (fbWf_copyBack (f := f) (h.buffer_wf hg) (h.flight job hj).2.1)
    rw [setBuffer_eq] at hcopy ⊢
    refine sysInv_writerSide hcopy id id hcopy.memory (fun hm => (h.singleMode hm).2) h.doubleMode ?_ ?_
    · rintro j ⟨⟩
      exact h.flight job hj
    · rintro j ⟨⟩ ⟨⟩
  · rw [keepView_eq]
    exact sysInv_writerSide h id id h.memory (fun hm => (h.singleMode hm).2)
      (fun hd => nomatch hm.symm.trans hd) nofun nofun
  · exact sysInv_writerSide h id id h.memory (fun hm => (h.singleMode hm).2) h.doubleMode nofun nofun

/-! Every step. -/

theorem sysInv_tsStart {s t : State} (h : SysInv s) (he : exec .tsStart s = .next t) : SysInv t := by
  obtain ⟨hst, -, rfl⟩ := execTsStart_next he
  obtain ⟨t, rounds, ⟨ht, e⟩ | ⟨ht, e⟩⟩ := tsStart_cases s <;> rw [e] <;>
    exact sysInv_schedule (ht.sysInv h hst) t.turns t.draws t.requests _

theorem sysInv_tsConfigure {s t : State} (h : SysInv s) {a : Timing} {d : DataPins} {c : CtrlPins}
    (he : exec (.tsConfigure a d c) s = .next t) : SysInv t := by
  obtain ⟨hst, hwf, rfl⟩ := execTsConfigure_next he
  obtain e | e := tsConfigure_cases a d c s <;> rw [e]
  · exact sysInv_schedule (sysInv_interfaceAbsent h) _ (interfaceAbsent s).draws _ _
  · exact sysInv_schedule (sysInv_interfaceLatched h hst hwf) _ (interfaceLatched a d c s).draws _ _

/-- A request the host may issue keeps the invariant: none but a FLUSH runs while one is in flight. -/
theorem sysInv_exec {i : Instr} {s t : State} (h : SysInv s) (hm : mayIssue i s = true) (he : exec i s = .next t) :
    SysInv t := by
  cases hi : streamSide i with
  | false => exact sysInv_linkSide h (exec_linkSide hi he) (exec_boardKept (by rintro rfl; cases hi) h.params he)
  | true =>
    cases i with
    | tsConfigure a d c => exact sysInv_tsConfigure h he
    | tsStart => exact sysInv_tsStart h he
    | tsTick => exact sysInv_tick h (exec_tsTick_next he).1 (exec_tsTick_next he).2
    | bringUp => exact sysInv_bringUp h he
    | flush r ps => exact sysInv_flush h he
    | tsNotify r =>
      obtain ⟨-, rfl⟩ := execTsNotify_next he
      have hidle : s.flush = none := ((mayIssue_iff _ s).1 hm).resolve_right (by rintro ⟨_, _, ⟨⟩⟩)
      have k := sysInv_tsNotify h r (job := none) (some .void) nofun nofun
      rw [← hidle] at k
      rw [tsNotify_eq] at k ⊢
      exact k
    | _ => cases hi

/-- Settles O58: by the agent that moves. -/
theorem systemInvariantIsKept : Obligations.SystemInvariantIsKept := by
  intro s t h he
  obtain ⟨ts, d, rfl | ⟨hr, ht⟩ | ⟨hret, rfl⟩ | hw | ⟨q, qs, i, -, -, hm, hx⟩⟩ := step_next he
  · exact sysInv_schedule h ts d s.requests s.lastResult
  · exact sysInv_tick (sysInv_schedule h ts d s.requests s.lastResult) hr ht
  · exact sysInv_returnReady (sysInv_schedule h ts d s.requests s.lastResult) hret
  · exact sysInv_flushContinue (sysInv_schedule h ts d s.requests s.lastResult) hw
  · exact sysInv_exec (sysInv_schedule h ts d qs s.lastResult) hm hx

end Sys2Proof.Machine
end

section
/-! PROOF. Where the system invariant holds: no faults and no refused move of the Writer; and the front buffer of DOUBLE
mode between frame boundaries. -/

namespace Sys2Proof.Machine

theorem stagingOf_single {s : State} (h : s.params.streamMode = .single) : stagingOf s = s.front := by
  rw [stagingOf, h]

theorem stagingOf_double {s : State} (h : s.params.streamMode = .double) : stagingOf s = otherBuffer s.front := by
  rw [stagingOf, h]

theorem SysInv.buffersExist {s : State} (h : SysInv s) (hr : s.tsState = .running) : buffersExist s := by
  obtain ⟨h0, h1⟩ := h.buffers hr
  cases hm : s.params.streamMode with
  | single =>
    refine ⟨?_, fun hd => (nomatch hm.symm.trans hd)⟩
    rw [(h.singleMode hm).1]
    exact h0
  | double =>
    have both : ∀ k, (bufferOf s k).isSome = true := fun k => by
      cases k with
      | zero => exact h0
      | one => exact h1 hm
    exact ⟨both _, fun _ => both _⟩

/-- The buffer a FLUSH writes exists where the one the Streamer reads does (R33). -/
theorem staging_isSome {s : State} (h : buffersExist s) : ∃ fb, bufferOf s (stagingOf s) = some fb := by
  rw [← Option.isSome_iff_exists]
  cases hm : s.params.streamMode with
  | single => rw [stagingOf_single hm]; exact h.1
  | double => rw [stagingOf_double hm]; exact h.2 hm

theorem SysInv.tick_answers {s : State} (h : SysInv s) (hr : s.tsState = .running) : ∃ t, tsTick s = .next t :=
  tsTick_answers (h.buffersExist hr)

/-! The Writer's move, by how far its FLUSH has come (R230). -/

theorem flushContinue_idle {s : State} (h : s.flush = none) : flushContinue s = .next s := by
  rw [flushContinue, h]

theorem flushContinue_notify {s : State} {job : FlushJob} (hj : s.flush = some job) (hph : job.phase = .notify)
    (hr : tsNotifyRefusal job.rect s = none) :
    flushContinue s = .next (flushAt job (afterNotify s.params.streamMode) (tsNotify job.rect s)) := by
  simp only [flushContinue, hj, hph, flushNotify, hr]

theorem flushContinue_waits {s : State} {job : FlushJob} (hj : s.flush = some job) (hph : job.phase = .flip)
    (hp : s.flipPending = true) : flushContinue s = .next s := by
  simp only [flushContinue, hj, hph, flushFlip, hp, if_true]

theorem flushContinue_copies {s : State} {job : FlushJob} {f g : Framebuffer} (hj : s.flush = some job)
    (hph : job.phase = .flip) (hp : s.flipPending = false) (hf : bufferOf s s.front = some f)
    (hg : bufferOf s (stagingOf s) = some g) :
    flushContinue s = .next (flushAt job .complete (setBuffer s (stagingOf s) (copyBack job.rect f g))) := by
  simp only [flushContinue, hj, hph, flushFlip, hp, hf, hg, Bool.false_eq_true, if_false]

theorem flushContinue_complete_single {s : State} {job : FlushJob} {fb : Framebuffer} (hj : s.flush = some job)
    (hph : job.phase = .complete) (hm : s.params.streamMode = .single) (hfb : bufferOf s s.front = some fb) :
    flushContinue s = .next (endFlush (keepView fb s)) := by
  simp only [flushContinue, hj, hph, flushComplete, hm, hfb]

theorem flushContinue_complete_double {s : State} {job : FlushJob} (hj : s.flush = some job)
    (hph : job.phase = .complete) (hm : s.params.streamMode = .double) : flushContinue s = .next (endFlush s) := by
  simp only [flushContinue, hj, hph, flushComplete, hm]

/-- The Writer's move is neither refused nor a fault (R33, R205). -/
theorem SysInv.flushContinue_answers {s : State} (h : SysInv s) : ∃ t, flushContinue s = .next t := by
  cases hj : s.flush with
  | none => exact ⟨s, flushContinue_idle hj⟩
  | some job =>
    obtain ⟨hready, hvalid, -⟩ := h.flight job hj
    have hrun := (h.ready hready).1
    have hbuf := h.buffersExist hrun
    obtain ⟨f, hf⟩ := Option.isSome_iff_exists.1 hbuf.1
    obtain ⟨g, hg⟩ := staging_isSome hbuf
    cases hph : job.phase with
    | notify =>
      have hnone := tsNotifyRefusal_eq_none.2 ⟨hrun, hvalid, fun _ => h.noFlip job hj hph⟩
      exact ⟨_, flushContinue_notify hj hph hnone⟩
    | flip =>
      cases hp : s.flipPending with
      | true => exact ⟨s, flushContinue_waits hj hph hp⟩
      | false => exact ⟨_, flushContinue_copies hj hph hp hf hg⟩
    | complete =>
      cases hm : s.params.streamMode with
      | single => exact ⟨_, flushContinue_complete_single hj hph hm hf⟩
      | double => exact ⟨_, flushContinue_complete_double hj hph hm⟩

theorem busWriteRow_not_fault (a : BusAddr) (w : BitVec 1) (r l h : Byte) (s : State) (f : Fault) :
    busWriteRow a w r l h s ≠ .fault f := by
  unfold busWriteRow
  split <;> nofun

/-- FLUSH finds its staging buffer: with a handle the Streamer runs. -/
theorem SysInv.flush_not_fault {s : State} (h : SysInv s) (r : Rect) (ps : List Pixel) (f : Fault) :
    execFlush r ps s ≠ .fault f := by
  unfold execFlush
  cases hready : s.panelReady with
  | false => nofun
  | true =>
    obtain ⟨fb, hfb⟩ := staging_isSome (h.buffersExist (h.ready hready).1)
    rw [hfb]
    dsimp only
    split
    · nofun
    · split
      · nofun
      · split
        · nofun
        · split
          · nofun
          · split <;> nofun

theorem SysInv.exec_not_fault {s : State} (h : SysInv s) (i : Instr) (f : Fault) : exec i s ≠ .fault f := by
  cases i with
  | splitCmd a b => exact whenLinked_not_fault (fun u => xfer Config.modeData b (xfer Config.modeCmd a u)) s f
  | frameCmd _ | frameData _ | entryWrite _ _ _ | entryDelay _ | sendData _ | sendCommand _ | panelReset
  | progRun | backlightOn | xfer _ _ | lineSet _ _ | delayUs _ | delayMs _ | regopWrite _ _ _ | regopDelay _ | clk _
  | sda _ | bl _ | writeReg _ _ => exact whenLinked_not_fault _ s f
  | i2cWrite _ _ _ _ _ | i2cWriteDir _ _ _ _ | i2cWriteOut _ _ _ _ => exact busWriteRow_not_fault _ _ _ _ _ s f
  | expInit | expSet _ _ | expGet _ | linkInit | cs _ | rst _ => nofun
  | flush r ps => exact h.flush_not_fault r ps f
  | tsTick =>
    by_cases hr : s.tsState = .running
    · obtain ⟨t, ht⟩ := h.tick_answers hr
      rw [exec_tsTick hr, ht]
      nofun
    · rw [show exec .tsTick s = _ from if_neg hr]
      nofun
  | tsConfigure a d c =>
    show execTsConfigure a d c s ≠ _
    unfold execTsConfigure
    split <;> nofun
  | tsStart =>
    show execTsStart s ≠ _
    unfold execTsStart
    split <;> nofun
  | tsNotify r =>
    show execTsNotify r s ≠ _
    unfold execTsNotify
    split <;> nofun
  | bringUp =>
    show execBringUp s ≠ _
    unfold execBringUp
    split
    · nofun
    · split
      · nofun
      · split <;> nofun

/-- Settles O60: by the agent that moves; the Writer's move always answers. -/
theorem noStepFaults : Obligations.NoStepFaults := by
  intro s h
  refine ⟨fun f => ?_, fun ts hturn => ?_⟩
  · obtain ⟨ts, d, e | e | e | e⟩ := step_cases s <;> rw [e] <;>
      have hs : SysInv { s with turns := ts, draws := d } := sysInv_schedule h ts d s.requests s.lastResult
    · unfold streamerMove
      split
      · obtain ⟨t, ht⟩ := hs.tick_answers ‹_›
        rw [ht]
        nofun
      · nofun
    · unfold bringUpContinue
      split <;> nofun
    · obtain ⟨t, ht⟩ := hs.flushContinue_answers
      rw [ht]
      nofun
    · obtain k | ⟨x, k⟩ | ⟨q, qs, i, -, -, -, -, k⟩ := requestMove_cases { s with turns := ts, draws := d } <;> rw [k]
      · nofun
      · nofun
      · exact (sysInv_schedule hs ts d qs s.lastResult).exec_not_fault i f
  · rw [step_writer hturn]
    exact (sysInv_schedule h ts s.draws s.requests s.lastResult).flushContinue_answers

/-! The front buffer. -/

theorem bufferOf_setBuffer_same (s : State) (k : Buffer) (g : Framebuffer) : bufferOf (setBuffer s k g) k = some g := by
  cases k <;> rfl

theorem bufferOf_setBuffer_other (s : State) {k j : Buffer} (h : j ≠ k) (g : Framebuffer) :
    bufferOf (setBuffer s k g) j = bufferOf s j := by
  cases k <;> cases j <;> trivial

theorem front_ne_stagingOf {s : State} (h : s.params.streamMode = .double) : s.front ≠ stagingOf s := by
  rw [stagingOf_double h]
  cases s.front <;> nofun

theorem setBuffer_front (s : State) (k : Buffer) (g : Framebuffer) : (setBuffer s k g).front = s.front := by
  cases k <;> rfl

/-- The same buffer is in front, with the same contents. -/
def FrontKept (s t : State) : Prop := t.front = s.front ∧ bufferOf t t.front = bufferOf s s.front

theorem frontKept_of_same {s t : State} (hf : t.front = s.front) (h0 : t.fb0 = s.fb0) (h1 : t.fb1 = s.fb1) :
    FrontKept s t := ⟨hf, by rw [hf, bufferOf_update h0 h1]⟩

theorem LinkSide.frontKept {s t : State} (h : LinkSide s t) : FrontKept s t := frontKept_of_same h.front h.fb0 h.fb1

/-- A write to the staging buffer of DOUBLE mode is no write to the front buffer (R63). -/
theorem frontKept_setBuffer {s t : State} (hm : s.params.streamMode = .double) (hf : t.front = s.front)
    (h0 : t.fb0 = s.fb0) (h1 : t.fb1 = s.fb1) (g : Framebuffer) : FrontKept s (setBuffer t (stagingOf s) g) := by
  refine ⟨(setBuffer_front _ _ _).trans hf, ?_⟩
  rw [setBuffer_front, hf, bufferOf_setBuffer_other t (front_ne_stagingOf hm), bufferOf_update h0 h1]

theorem frontKept_tick {s t : State} (hb : atBoundary s = false) (h : tsTick s = .next t) : FrontKept s t := by
  obtain ⟨d, -, rfl⟩ := tsTick_eq h
  have hflip : flips s = false := by rw [flips, hb]; rfl
  refine frontKept_of_same ?_ rfl rfl
  show frontAfter s = s.front
  rw [frontAfter, hflip]
  rfl

theorem frontKept_startFlush {s : State} (hm : s.params.streamMode = .double) (r : Rect) (ps : List Pixel)
    (fb : Framebuffer) : FrontKept s (startFlush r ps fb s) := by
  rw [startFlush_eq, keepView_eq]
  refine frontKept_setBuffer hm ?_ ?_ ?_ _ <;> rfl

theorem frontKept_flushContinue {s t : State} (hm : s.params.streamMode = .double) (h : flushContinue s = .next t) :
    FrontKept s t := by
  obtain rfl | ⟨job, -, -, -, rfl⟩ | ⟨job, f, g, -, -, -, -, -, rfl⟩ | ⟨_, fb, -, -, hm', -⟩ | ⟨_, -, -, -, rfl⟩ :=
    flushContinue_next h
  · exact frontKept_of_same rfl rfl rfl
  · rw [tsNotify_eq]
    exact frontKept_of_same rfl rfl rfl
  · have hkept := frontKept_setBuffer hm rfl rfl rfl (copyBack job.rect f g)
    rw [setBuffer_eq] at hkept ⊢
    exact hkept
  · exact nomatch hm.symm.trans hm'
  · exact frontKept_of_same rfl rfl rfl

theorem frontKept_exec {i : Instr} {s t : State} (hm : s.params.streamMode = .double) (hr : s.tsState = .running)
    (hb : atBoundary s = false) (h : exec i s = .next t) : FrontKept s t := by
  cases hi : streamSide i with
  | false => exact (exec_linkSide hi h).frontKept
  | true =>
    cases i with
    | tsTick => exact frontKept_tick hb (exec_tsTick_next h).2
    | tsConfigure a d c => exact nomatch hr.symm.trans (execTsConfigure_next h).1
    | tsStart => exact nomatch hr.symm.trans (execTsStart_next h).1
    | tsNotify r =>
      obtain ⟨-, rfl⟩ := execTsNotify_next h
      rw [tsNotify_eq]
      exact frontKept_of_same rfl rfl rfl
    | bringUp =>
      obtain ⟨u, e, hu, rfl⟩ := execBringUp_running hr h
      have hl := linkSide_of_expInit hu
      exact frontKept_of_same hl.front hl.fb0 hl.fb1
    | flush r ps =>
      obtain ⟨-, -, ⟨-, rfl⟩ | ⟨fb, -, -, -, -, rfl⟩⟩ := execFlush_next h
      · exact frontKept_of_same rfl rfl rfl
      · exact frontKept_startFlush hm r ps fb
    | _ => cases hi

/-- Settles O56: by the agent that moves; the writes go to the staging buffer, and the flip stands on the boundary. -/
theorem doubleModeFrontIsStableWithinAFrame : Obligations.DoubleModeFrontIsStableWithinAFrame := by
  intro s t hm hr hb h
  obtain ⟨ts, d, rfl | ⟨-, ht⟩ | ⟨-, rfl⟩ | hw | ⟨q, qs, i, -, -, -, hx⟩⟩ := step_next h
  · exact frontKept_of_same rfl rfl rfl
  · exact frontKept_tick (s := { s with turns := ts, draws := d }) hb ht
  · exact frontKept_of_same rfl rfl rfl
  · exact frontKept_flushContinue (s := { s with turns := ts, draws := d }) hm hw
  · exact frontKept_exec (s := { s with turns := ts, draws := d, requests := qs }) hm hr hb hx

end Sys2Proof.Machine
end

section
/-! PROOF. BRING_UP (44_orchestrator.md section 1): its failures, its return, and its five stages. -/

namespace Sys2Proof.Machine

/-- Settles O43: whether or not stage 5a would refuse, EXP_INIT ends at its probe. -/
theorem bringUpStopsAtAFailedProbe : Obligations.BringUpStopsAtAFailedProbe := by
  intro s hready hret herr hnack
  show execBringUp s = _
  rw [execBringUp, hready, hret, herr]
  simp only [bringUp, expInit_of_probe_nack hnack]
  cases tsConfigureRefusal s.tsState (timingOf s.params) s.params.dataPins s.params.ctrlPins <;>
    simp [failBringUp, raiseError, emit]

/-! How BRING_UP ends. -/

/-- Every stage done, the Streamer running and the return to come. -/
def ComesToReturn (t : State) : Prop :=
  t.bringUpReturning = true ∧ t.lastResult = none ∧ t.panelReady = false ∧ t.bringupError = none ∧
    t.tsState = .running ∧ t.expInitialized = true ∧ t.linkConfigured = true ∧ t.ppDone = true ∧ t.bl = .driven true

/-- The error recorded, reported last in the trace, and the Streamer not running. -/
def FailsLoudly (e : Err) (t : State) : Prop :=
  t.lastResult = some (.error e) ∧ t.panelReady = false ∧ t.bringUpReturning = false ∧ t.bringupError = some e ∧
    t.tsState ≠ .running ∧ t.tr.getLast? = some (.diag e)

theorem failsLoudly_failBringUp {s : State} (hready : s.panelReady = false) (hret : s.bringUpReturning = false)
    (hst : s.tsState ≠ .running) (e : Err) : FailsLoudly e (failBringUp e s) :=
  ⟨rfl, hready, hret, rfl, hst, List.getLast?_concat⟩

/-- Stage 5, with the stages before it done. -/
theorem bringUpStream_ends {s : State} (hready : s.panelReady = false) (hret : s.bringUpReturning = false)
    (herr : s.bringupError = none) (hst : s.tsState = .unconfigured) (hinit : s.expInitialized = true)
    (hlink : s.linkConfigured = true) (hdone : s.ppDone = true) (hbl : s.bl = .driven true) :
    ComesToReturn (bringUpStream s) ∨ FailsLoudly (.transportAbsent .tsConfigure) (bringUpStream s) ∨
      FailsLoudly (.alloc .tsStart) (bringUpStream s) := by
  obtain e | ⟨t, rounds, ⟨as, d, pool, -, -, rfl⟩, e⟩ | ⟨t, rounds, ⟨as, d, fb0, fb1, -, -, -, -, -, rfl⟩, e⟩ :=
    bringUpStream_cases s <;> rw [e]
  · have hne : s.tsState ≠ .running := by rw [hst]; nofun
    exact .inr (.inl (failsLoudly_failBringUp (s := interfaceAbsent s) hready hret hne _))
  · refine .inr (.inr (failsLoudly_failBringUp ?_ ?_ ?_ _))
    · exact hready
    · exact hret
    · nofun
  · exact .inl ⟨rfl, rfl, hready, herr, rfl, hinit, hlink, hdone, hbl⟩

theorem exec_bringUp_ends {s t : State} (hst : s.tsState ≠ .running) (h : exec .bringUp s = .next t) :
    ComesToReturn t ∨ FailsLoudly (.transportAbsent .expInit) t ∨ FailsLoudly (.transportAbsent .tsConfigure) t ∨
      FailsLoudly (.alloc .tsStart) t := by
  obtain ⟨hready, hret, herr, ⟨u, hu, rfl⟩ | ⟨hst', -, u, hu, hinit, rfl⟩⟩ := exec_bringUp_next h <;>
    have hl := linkSide_of_expInit hu
  · exact .inr (.inl (failsLoudly_failBringUp (hl.panelReady.trans hready) (hl.bringUpReturning.trans hret)
      (by rw [hl.tsState]; exact hst) _))
  · have hl' := hl.trans (linkSide_bringUpPanel u)
    have hends := bringUpStream_ends (s := bringUpPanel u) (hl'.panelReady.trans hready)
      (hl'.bringUpReturning.trans hret) (hl'.bringupError.trans herr) (hl'.tsState.trans hst')
      ((linkSide_bringUpPanel u).expInitialized hinit) (linkConfigured_bringUpPanel u) rfl rfl
    exact hends.imp_right .inr

/-- Settles O44: the ways BRING_UP can end, the Sequencer's move, and a tick before it. -/
theorem bringUpIsReadyOrFailsLoudly : Obligations.BringUpIsReadyOrFailsLoudly := by
  refine ⟨fun s t _ _ _ hst h => ?_, fun u ts hturn => ⟨fun hret => ?_, fun hret => ?_⟩,
    fun u hret => exec_bringUp_refused (.inr (.inl hret)), fun u t ts hret hturn h => ?_⟩
  · obtain hr | ⟨h1, h2, h3, h4, h5, h6⟩ | ⟨h1, h2, h3, h4, h5, h6⟩ | ⟨h1, h2, h3, h4, h5, h6⟩ :=
      exec_bringUp_ends hst h
    · exact .inl hr
    · exact .inr ⟨_, h1, h2, h3, h4, h5, h6, .inl rfl⟩
    · exact .inr ⟨_, h1, h2, h3, h4, h5, h6, .inr (.inl rfl)⟩
    · exact .inr ⟨_, h1, h2, h3, h4, h5, h6, .inr (.inr rfl)⟩
  · rw [step_sequencer hturn]
    exact if_pos hret
  · rw [step_sequencer hturn]
    exact if_neg (by rw [hret]; nofun)
  · rw [step_streamer hturn, streamerMove] at h
    split at h
    · obtain ⟨d, -, rfl⟩ := tsTick_eq h
      exact ⟨hret, rfl⟩
    · cases h
      exact ⟨hret, rfl⟩

/-! The five stages, with a willing environment. -/

/-- Stages 2 to 4 in full, but for the answers they got (R220). -/
theorem bringUpPanel_eq {s : State} (h : milestonesWellFormed s.params.table s.params.milestones = true) :
    ∃ es a d, es.map eraseAck = progRunShape s.params s.expInitialized s.expMirror ∧
      bringUpPanel s = { s with
        tr := s.tr ++ (linkInitEvents ++ es ++ [.line .bl true]), acks := a, draws := d,
        linkConfigured := true, ppIndex := s.params.table.length, ppState := .displaying, ppDone := true,
        expMirror := if s.expInitialized then
            insertBit (insertBit s.expMirror s.params.rstBit true) s.params.csBit true else s.expMirror,
        expHwOut := chipRegAfter s.params 0x02 s.expHwOut es,
        clk := .driven false, sda := padAfter .sda (.driven false) es, bl := .driven true } := by
  obtain ⟨es, a, d, hes, hrun⟩ := progRun_eq (s := linkInit s) h
  rw [linkInit_eq] at hes hrun
  refine ⟨es, a, d, hes, ?_⟩
  rw [bringUpPanel, linkInit_eq, hrun]
  simp [backlightOn, lineSet, emit, Config.blOn]

/-- The mirror EXP_INIT leaves has both pins' bits set already. -/
theorem insertBit_initOutWord (p : Params) :
    insertBit (insertBit (initOutWord p) p.rstBit true) p.csBit true = initOutWord p := by
  refine BitVec.eq_of_getLsbD_eq fun k hk => ?_
  simp only [initOutWord, getLsbD_insertBit _ _ _ _ hk]
  split <;> simp_all

/-- TS_CONFIGURE with the interface present by the script. -/
theorem tsConfigure_scripted {s : State} (t : Timing) (d : DataPins) (c : CtrlPins)
    (h : s.pixIfAnswers.head? = some .present) :
    tsConfigure t d c s = ({ s with
      pixIfAnswers := s.pixIfAnswers.tail, tr := s.tr ++ [.pixIfProbe .present], tsCfg := ⟨t, d, c⟩,
      tsState := .configured }, none) := by
  cases hs : s.pixIfAnswers with
  | nil => rw [hs] at h; cases h
  | cons r rs =>
    rw [hs] at h
    obtain rfl : r = .present := Option.some.inj h
    simp [tsConfigure, askPixIf, hs, emit]

/-- Stage 5 with the interface present and every pool willing, in full (R220). -/
theorem bringUpStream_willing {s : State} {rest : List AllocAnswer} (hpix : s.pixIfAnswers.head? = some .present)
    (halloc : s.allocAnswers = List.replicate (bufferCount s.params.streamMode) .ok ++ rest) :
    bringUpStream s = { s with
      pixIfAnswers := s.pixIfAnswers.tail, allocAnswers := rest, draws := s.draws + bufferCount s.params.streamMode,
      tsCfg := ⟨timingOf s.params, s.params.dataPins, s.params.ctrlPins⟩,
      fb0 := some { drawn := s.draws, cells := [] },
      fb1 := secondBuffer s.params.streamMode s.fb1 (s.draws + 1),
      fbPool := .primary, front := .zero, hcnt := 0, vcnt := 0, frameNo := 0, flipPending := false,
      earlierViews := [], tsState := .running, bringUpReturning := true, lastResult := none,
      tr := s.tr ++ ([.pixIfProbe .present] ++
        List.replicate (bufferCount s.params.streamMode) (.alloc .primary .ok)) } := by
  simp only [bringUpStream, tsConfigure_scripted _ _ _ hpix]
  rw [tsStart_willing (rest := rest) (by exact halloc)]
  simp only [List.append_assoc]

theorem exec_bringUp_accepted {s : State} (hready : s.panelReady = false) (hret : s.bringUpReturning = false)
    (herr : s.bringupError = none) (hst : s.tsState = .unconfigured) (hp : paramsWellFormed s.params = true) :
    exec .bringUp s = .next (bringUp s) := by
  obtain ⟨-, -, -, -, hwf⟩ := paramsWellFormed_iff.1 hp
  show execBringUp s = _
  rw [execBringUp, hready, hret, herr, tsConfigureRefusal_eq_none.2 ⟨hst, hwf⟩]
  rfl

/-- The events of the five stages, with what PROG_RUN sent in the middle. -/
def bringUpEvents (p : Params) (es : List Event) : List Event :=
  [.i2cProbe p.expAddr .ok, dirWrite p (initDirWord p) .ok, outWrite p (initOutWord p) .ok] ++
    (linkInitEvents ++ es ++ [.line .bl true]) ++
      ([.pixIfProbe .present] ++ List.replicate (bufferCount p.streamMode) (.alloc .primary .ok))

theorem map_eraseAck_bringUpEvents (p : Params) (es : List Event) : (bringUpEvents p es).map eraseAck =
    [.i2cProbe p.expAddr .ok, dirWrite p (initDirWord p) .ok, outWrite p (initOutWord p) .ok] ++ linkInitEvents ++
      es.map eraseAck ++ [.line .bl true] ++ [.pixIfProbe .present] ++
        List.replicate (bufferCount p.streamMode) (.alloc .primary .ok) := by
  simp [bringUpEvents, linkInitEvents, eraseAck, dirWrite, outWrite]

theorem isQuiet_streamEvents (n : Nat) :
    ([.pixIfProbe .present] ++ List.replicate n (.alloc .primary .ok) : List Event).all isQuiet = true := by
  rw [List.all_append, List.all_replicate]
  simp [isQuiet]

/-- The output register sees EXP_INIT's word and what PROG_RUN sent. -/
theorem chipRegAfter_bringUpEvents (p : Params) (q : Word16) (es : List Event) :
    chipRegAfter p 0x02 q (bringUpEvents p es) = chipRegAfter p 0x02 (initOutWord p) es := by
  have hinit : chipRegAfter p 0x02 q [.i2cProbe p.expAddr .ok, dirWrite p (initDirWord p) .ok,
      outWrite p (initOutWord p) .ok] = initOutWord p := by
    show chipRegAfter p 0x02 q ([_, _] ++ [_]) = _
    rw [chipRegAfter_append]
    exact chipRegAfter_outWrite p _ (initOutWord p) .ok
  rw [bringUpEvents, chipRegAfter_append, chipRegAfter_quiet (isQuiet_streamEvents _), chipRegAfter_append, hinit,
    chipRegAfter_append, chipRegAfter_append]
  rfl

/-- The data line starts low and sees what PROG_RUN sent. -/
theorem padAfter_sda_bringUpEvents (p : Params) (q : Pad) (es : List Event) :
    padAfter .sda q (bringUpEvents p es) = padAfter .sda (.driven false) es := by
  rw [bringUpEvents, padAfter_append, padAfter_quiet (isQuiet_streamEvents _), padAfter_append, padAfter_append,
    padAfter_append]
  rfl

/-- BRING_UP with a willing environment, in full but for the answers PROG_RUN got. -/
theorem bringUp_willing {s : State} {rest : List AllocAnswer} (hp : paramsWellFormed s.params = true)
    (h0 : ackAt s 0 = .ok) (h1 : ackAt s 1 = .ok) (h2 : ackAt s 2 = .ok)
    (hpix : s.pixIfAnswers.head? = some .present)
    (halloc : s.allocAnswers = List.replicate (bufferCount s.params.streamMode) .ok ++ rest) :
    ∃ es a d, es.map eraseAck = progRunShape s.params true (initOutWord s.params) ∧ bringUp s = { s with
      tr := s.tr ++ bringUpEvents s.params es, acks := a, draws := d + bufferCount s.params.streamMode,
      pixIfAnswers := s.pixIfAnswers.tail, allocAnswers := rest, expInitialized := true,
      expMirror := initOutWord s.params, expHwDir := initDirWord s.params,
      expHwOut := chipRegAfter s.params 0x02 (initOutWord s.params) es,
      linkConfigured := true, clk := .driven false, sda := padAfter .sda (.driven false) es, bl := .driven true,
      ppIndex := s.params.table.length, ppState := .displaying, ppDone := true,
      tsCfg := ⟨timingOf s.params, s.params.dataPins, s.params.ctrlPins⟩, tsState := .running, front := .zero,
      hcnt := 0, vcnt := 0, frameNo := 0, flipPending := false, earlierViews := [], fbPool := .primary,
      fb0 := some { drawn := d, cells := [] },
      fb1 := secondBuffer s.params.streamMode s.fb1 (d + 1),
      bringUpReturning := true, lastResult := none } := by
  obtain ⟨-, -, -, hmilestones, -⟩ := paramsWellFormed_iff.1 hp
  have hinit := expInit_of_all_ok h0 h1 h2
  obtain ⟨es, a, d, hes, hpanel⟩ := bringUpPanel_eq
    (s := { expInitOutWritten .ok s with expMirror := initOutWord s.params, expInitialized := true }) hmilestones
  refine ⟨es, a, d, hes, ?_⟩
  simp only [bringUp, hinit]
  rw [hpanel, bringUpStream_willing (rest := rest) (by exact hpix) (by exact halloc)]
  simp only [expInitOutWritten, afterAcks, if_true, insertBit_initOutWord, List.append_assoc, bringUpEvents]
  rfl

/-- Settles O45: the stages one after another, each in its closed form. -/
theorem bringUpRunsTheFiveStages : Obligations.BringUpRunsTheFiveStages := by
  intro s rest hready hret herr hst hp h0 h1 h2 hpix halloc p dir out
  obtain ⟨es, a, d, hes, hrun⟩ := bringUp_willing hp h0 h1 h2 hpix halloc
  have hnew : newEvents s (bringUp s) = bringUpEvents s.params es := by
    rw [hrun]
    exact List.drop_left
  refine ⟨bringUp s, exec_bringUp_accepted hready hret herr hst hp, ?_, ?_, ?_, ?_, ?_, ?_⟩
  · rw [hrun]
    exact List.prefix_append _ _
  · rw [hnew, map_eraseAck_bringUpEvents, hes]
    rfl
  · rw [hnew, chipRegAfter_bringUpEvents, padAfter_sda_bringUpEvents, hrun]
    rfl
  · rw [hrun]
    exact ⟨_, rfl, rfl⟩
  · intro hm
    rw [hrun]
    exact ⟨{ drawn := d + 1, cells := [] }, congrArg (secondBuffer · s.fb1 (d + 1)) hm, rfl⟩
  · intro hm
    rw [hrun]
    exact congrArg (secondBuffer · s.fb1 (d + 1)) hm

end Sys2Proof.Machine
end

section
/-! PROOF. FLUSH (44_orchestrator.md section 3): its refusals, its writes and the Writer's moves. -/

namespace Sys2Proof.Machine

/-! What FLUSH answers (R230, R248). -/

theorem exec_flush_badLength {s : State} {r : Rect} {ps : List Pixel} (hready : s.panelReady = true)
    (hidle : s.flush = none) (hr : rectValid r = true) (hl : ps.length ≠ rectWidth r * rectHeight r) :
    exec (.flush r ps) s = .refused .badLength := by
  show execFlush r ps s = _
  rw [execFlush, hready, flushInFlight, hidle, hr, if_pos hl]
  rfl

theorem exec_flush_started {s : State} {r : Rect} {ps : List Pixel} {fb : Framebuffer} (hready : s.panelReady = true)
    (hidle : s.flush = none) (hl : ps.length = rectWidth r * rectHeight r)
    (hfb : bufferOf s (stagingOf s) = some fb) (hr : tsNotifyRefusal r s = none) :
    exec (.flush r ps) s = .next (startFlush r ps fb s) := by
  have hvalid := (tsNotifyRefusal_eq_none.1 hr).2.1
  show execFlush r ps s = _
  rw [execFlush, hready, flushInFlight, hidle, hvalid, if_neg (not_not.2 hl), hfb, hr]
  rfl

/-- Settles O47: the checks of FLUSH, each where those before it pass. -/
theorem flushRefusesInOrder : Obligations.FlushRefusesInOrder := by
  intro s r ps
  refine ⟨fun hready => ?_, fun hready hflight => ?_, fun hready hidle h1 h2 h3 h4 hl => ?_⟩
  · show execFlush r ps s = _
    rw [execFlush, hready]
    rfl
  · show execFlush r ps s = _
    rw [execFlush, hready, flushInFlight, hflight]
    rfl
  · exact exec_flush_badLength hready hidle ((rectValid_iff r).2 ⟨h1, h2, h3, h4⟩) hl

/-! The pixels of a rectangle after a write of it (R89, R230). -/

/-- A pixel the rectangle covers, in the list of indices: element `j × w + i`. -/
theorem rectIndices_getElem?_of_covers {r : Rect} {x y : Nat} (h : rectCovers r x y) :
    (rectIndices r)[(y - r.y0) * (r.x1 - r.x0) + (x - r.x0)]? = some (y * 480 + x) := by
  obtain ⟨hx0, hx1, hy0, hy1⟩ := h
  have hi : x - r.x0 < rectWidth r := by rw [rectWidth]; omega
  have hj : y - r.y0 < rectHeight r := by rw [rectHeight]; omega
  refine (rectIndices_getElem? r hi hj).trans ?_
  rw [show r.x0 + (x - r.x0) = x by omega, show r.y0 + (y - r.y0) = y by omega]
  rfl

/-- The write of a list of pixels to a rectangle puts element `j × w + i` at `(x0 + i, y0 + j)`. -/
theorem fbPixel_writeRect {r : Rect} (hr : rectValid r = true) (fb : Framebuffer) {ps : List Pixel}
    (hl : ps.length = rectWidth r * rectHeight r) {x y : Nat} (h : rectCovers r x y) :
    flushedPixel r ps x y = some (fbPixel (fbWriteAll fb (rectIndices r) ps) (y * 480 + x)) :=
  fbPixel_fbWriteAll fb _ ps (nodup_rectIndices ((rectValid_iff r).1 hr).2.1) ((length_rectIndices r).trans hl.symm)
    (rectIndices_getElem?_of_covers h)

/-- A pixel outside a rectangle is not among its indices. -/
theorem notMem_rectIndices {r : Rect} (hr : rectValid r = true) {x y : Nat} (hx : x < 480) (h : ¬rectCovers r x y) :
    y * 480 + x ∉ rectIndices r := by
  rintro hmem
  obtain ⟨x', y', hc, e⟩ := (mem_rectIndices r _).1 hmem
  have hx' : x' < 480 := hc.2.1.trans_le ((rectValid_iff r).1 hr).2.1
  obtain ⟨rfl, rfl⟩ : x = x' ∧ y = y' := by omega
  exact h hc

theorem fbPixel_writeRect_outside {r : Rect} (hr : rectValid r = true) (fb : Framebuffer) (ps : List Pixel) {x y : Nat}
    (hx : x < 480) (h : ¬rectCovers r x y) :
    fbPixel (fbWriteAll fb (rectIndices r) ps) (y * 480 + x) = fbPixel fb (y * 480 + x) :=
  fbPixel_fbWriteAll_other fb _ ps (notMem_rectIndices hr hx h)

/-- A byte of no pixel of the rectangle stays. -/
theorem memRead_writeRect_outside {r : Rect} (fb : Framebuffer) (ps : List Pixel) {a : Nat}
    (h : ∀ x y, rectCovers r x y → a ≠ 2 * (y * 480 + x) ∧ a ≠ 2 * (y * 480 + x) + 1) :
    memRead (fbWriteAll fb (rectIndices r) ps).cells a = memRead fb.cells a := by
  refine memRead_fbWriteAll_other fb _ ps fun i hi => ?_
  obtain ⟨x, y, hc, rfl⟩ := (mem_rectIndices r i).1 hi
  exact h x y hc

/-- The copy-back gives a covered pixel the front buffer's value (R207). -/
theorem fbPixel_copyBack {r : Rect} (hr : rectValid r = true) (f b : Framebuffer) {x y : Nat} (h : rectCovers r x y) :
    fbPixel (copyBack r f b) (y * 480 + x) = fbPixel f (y * 480 + x) := by
  have hidx := rectIndices_getElem?_of_covers h
  have hw := fbPixel_fbWriteAll b _ ((rectIndices r).map (fbPixel f))
    (nodup_rectIndices ((rectValid_iff r).1 hr).2.1) (List.length_map _).symm hidx
  rw [List.getElem?_map, hidx] at hw
  exact (Option.some.inj hw).symm

/-! The start of a FLUSH. -/

theorem withStaging_eq (s : State) (g : Framebuffer) : withStaging s g = setBuffer s (stagingOf s) g := by
  cases hm : s.params.streamMode <;> cases hf : s.front <;>
    simp [withStaging, stagingOf, setBuffer, otherBuffer, hm, hf]

/-- Settles O48: the start of a FLUSH, its write pixel by pixel. -/
theorem flushWritesItsRectangle : Obligations.FlushWritesItsRectangle := by
  intro s r ps fb hready hidle hrun h1 h2 h3 h4 hl hfb hflip
  have hr : rectValid r = true := (rectValid_iff r).2 ⟨h1, h2, h3, h4⟩
  refine ⟨fbWriteAll fb (rectIndices r) ps, ?_, fbWriteAll_drawn _ _ _, fun x y hc => fbPixel_writeRect hr fb hl hc,
    fun a ha => memRead_writeRect_outside fb ps ha⟩
  rw [exec_flush_started hready hidle hl hfb (tsNotifyRefusal_eq_none.2 ⟨hrun, hr, hflip⟩), startFlush_eq, keepView_eq,
    withStaging_eq, setBuffer_eq, setBuffer_eq, currentView_of_no_race fb (.inr hidle)]
  cases hm : s.params.streamMode <;> rfl

/-! The Writer's moves. -/

/-- Settles O49: TS_NOTIFY changes nothing in SINGLE mode, and the completion keeps the racing view. -/
theorem singleFlushCompletes : Obligations.SingleFlushCompletes := by
  intro s ts job fb hturn hj hm hfb
  rw [step_writer hturn]
  refine ⟨fun hph hrun hr => ?_, fun hph => ?_⟩
  · rw [flushContinue_notify (s := { s with turns := ts }) hj hph (tsNotifyRefusal_single hrun hr hm),
      tsNotify_single (s := { s with turns := ts }) _ hm]
    simp only [flushAt, hm]
    rfl
  · rw [flushContinue_complete_single (s := { s with turns := ts }) hj hph hm hfb, keepView_eq]
    simp [endFlush, returned, currentView, hm, hj]

/-- Settles O50: the flip request, the wait, the copy-back and the completion. -/
theorem doubleFlushWaitsThenCopiesBack : Obligations.DoubleFlushWaitsThenCopiesBack := by
  intro s ts job f b hturn hj hm hf hb hr
  rw [step_writer hturn]
  refine ⟨fun hph hrun hp => ?_, fun hph hp => ?_, fun hph hp => ?_, fun hph => ?_⟩
  · have hnone : tsNotifyRefusal job.rect { s with turns := ts } = none :=
      tsNotifyRefusal_eq_none.2 ⟨hrun, hr, fun _ => hp⟩
    rw [flushContinue_notify (s := { s with turns := ts }) hj hph hnone,
      tsNotify_double (s := { s with turns := ts }) _ hm]
    simp only [flushAt, hm]
    rfl
  · exact flushContinue_waits (s := { s with turns := ts }) hj hph hp
  · refine ⟨copyBack job.rect f b, ?_, fbWriteAll_drawn _ _ _, fun x y hc => fbPixel_copyBack hr f b hc,
      fun a ha => memRead_writeRect_outside b _ ha⟩
    rw [flushContinue_copies (s := { s with turns := ts }) hj hph hp hf hb, withStaging_eq, setBuffer_eq, setBuffer_eq]
    rfl
  · exact flushContinue_complete_double (s := { s with turns := ts }) hj hph hm

end Sys2Proof.Machine
end

section
/-! PROOF. A FLUSH from its start to its completion, whatever falls inside it (44_orchestrator.md section 3). -/

namespace Sys2Proof.Machine

/-! Moves that are no request of the host's. -/

/-- The turn passes, or the Streamer, the Sequencer or the Writer moves. -/
inductive UnaskedMove : State → State → Prop
  | turn (s : State) (ts : List Turn) (d : Nat) : UnaskedMove s { s with turns := ts, draws := d }
  | tick {s t : State} (h : tsTick s = .next t) : UnaskedMove s t
  | ready (s : State) : UnaskedMove s (returnReady s)
  | writer {s t : State} (h : flushContinue s = .next t) : UnaskedMove s t

/-- Such moves in a row. -/
def UnaskedMoves (s t : State) : Prop := Relation.ReflTransGen UnaskedMove s t

theorem UnaskedMoves.refl (s : State) : UnaskedMoves s s := Relation.ReflTransGen.refl

theorem UnaskedMoves.tail {s t u : State} (h : UnaskedMoves s t) (k : UnaskedMove t u) : UnaskedMoves s u :=
  Relation.ReflTransGen.tail h k

theorem UnaskedMoves.trans {s t u : State} (h : UnaskedMoves s t) (k : UnaskedMoves t u) : UnaskedMoves s u :=
  Relation.ReflTransGen.trans h k

theorem UnaskedMoves.keeps {P : State → Prop} (hP : ∀ {s t}, UnaskedMove s t → P s → P t) {s t : State}
    (h : UnaskedMoves s t) (hs : P s) : P t := by
  induction h with
  | refl => exact hs
  | tail _ k ih => exact hP k ih

theorem ticks_unasked {n : Nat} {s t : State} (h : ticks n s = .next t) : UnaskedMoves s t :=
  ticks_keeps (P := fun _ v => UnaskedMoves s v) h (.refl s)
    fun _ _ _ _ hu hv => hu.tail (.tick (exec_tsTick_next hv).2)

/-- No operation reads or writes the queue of requests. -/
theorem exec_requests {i : Instr} {s t : State} (h : exec i s = .next t) : t.requests = s.requests := by
  cases hi : streamSide i with
  | false => exact (exec_linkSide hi h).requests
  | true =>
    by_cases hb : i = .bringUp
    · subst hb
      obtain ⟨-, -, -, ⟨u, hu, rfl⟩ | ⟨-, -, u, hu, -, rfl⟩⟩ := exec_bringUp_next h <;>
        have hl := linkSide_of_expInit hu
      · exact hl.requests
      · exact (quiet_bringUpStream _).requests.trans (hl.trans (linkSide_bringUpPanel u)).requests
    · exact (exec_quiet h hi hb).requests

/-- A step issues no request, and is such moves, or takes the first request of the queue. -/
theorem step_asks {s t : State} (h : step s = .next t) :
    (t.requests = s.requests ∧ UnaskedMoves s t) ∨ ∃ q, s.requests = q :: t.requests := by
  obtain ⟨ts, d, rfl | ⟨-, ht⟩ | ⟨-, rfl⟩ | hw | ⟨q, qs, i, -, hq, -, hx⟩⟩ := step_next h
  · exact .inl ⟨rfl, (UnaskedMoves.refl s).tail (.turn s ts d)⟩
  · exact .inl ⟨(quiet_tick ht).requests, ((UnaskedMoves.refl s).tail (.turn s ts d)).tail (.tick ht)⟩
  · exact .inl ⟨rfl, ((UnaskedMoves.refl s).tail (.turn s ts d)).tail (.ready _)⟩
  · exact .inl ⟨(writerSide_flushContinue hw).quiet.requests,
      ((UnaskedMoves.refl s).tail (.turn s ts d)).tail (.writer hw)⟩
  · exact .inr ⟨q, by rw [exec_requests hx]; exact hq⟩

theorem steps_requests {n : Nat} {s t : State} (h : steps n s = .next t) : t.requests.length ≤ s.requests.length :=
  steps_keeps (P := fun v => v.requests.length ≤ s.requests.length) h (Nat.le_refl _) fun u v hu hv => by
    obtain ⟨hq, -⟩ | ⟨q, hq⟩ := step_asks hv
    · rw [hq]
      exact hu
    · rw [hq, List.length_cons] at hu
      omega

/-- Steps at the end of which the queue is what it was have issued no request. -/
theorem steps_unasked {n : Nat} {s t : State} (h : steps n s = .next t) (hq : t.requests = s.requests) :
    UnaskedMoves s t := by
  induction n generalizing s with
  | zero => cases h; exact .refl _
  | succ n ih =>
    cases hu : step s with
    | fault e => rw [steps, hu] at h; cases h
    | refused e => rw [steps, hu] at h; cases h
    | next u =>
      rw [steps, hu] at h
      obtain ⟨hsame, hmoves⟩ | ⟨q, htaken⟩ := step_asks hu
      · exact hmoves.trans (ih h (hq.trans hsame.symm))
      · have hle := steps_requests h
        rw [hq, htaken, List.length_cons] at hle
        omega

/-! What a tick does to the buffers: none of them is written, and a pending flip may come. -/

theorem tsTick_buffers {s t : State} (h : tsTick s = .next t) :
    t.params = s.params ∧ t.flush = s.flush ∧ (∀ k, bufferOf t k = bufferOf s k) ∧
      ((t.front = s.front ∧ t.flipPending = s.flipPending) ∨
       (s.params.streamMode = .double ∧ s.flipPending = true ∧ t.front = otherBuffer s.front ∧
         t.flipPending = false)) := by
  obtain ⟨d, -, rfl⟩ := tsTick_eq h
  refine ⟨rfl, rfl, fun k => bufferOf_update rfl rfl k, ?_⟩
  dsimp only [frontAfter]
  cases hf : flips s with
  | false => exact .inl ⟨rfl, rfl⟩
  | true =>
    simp only [flips, Bool.and_eq_true, beq_iff_eq] at hf
    exact .inr ⟨hf.1.2, hf.2, rfl, rfl⟩

/-! SINGLE mode: the front buffer, once written, stays as it is. -/

/-- A FLUSH of SINGLE mode has written `g` to the buffer `k`. -/
structure SinglePhase (p : Params) (k : Buffer) (g : Framebuffer) (v : State) : Prop where
  params : v.params = p
  front : v.front = k
  buffer : bufferOf v k = some g
  phase : ∀ job, v.flush = some job → job.phase ≠ .flip

theorem singlePhase_move {p : Params} {k : Buffer} {g : Framebuffer} (hm : p.streamMode = .single) {v w : State}
    (h : UnaskedMove v w) (hv : SinglePhase p k g v) : SinglePhase p k g w := by
  obtain ⟨hp, hk, hg, hph⟩ := hv
  cases h with
  | turn | ready => exact ⟨hp, hk, hg, hph⟩
  | tick h =>
    obtain ⟨hp', hj', hb', ⟨hk', -⟩ | ⟨hd, -⟩⟩ := tsTick_buffers h
    · exact ⟨hp'.trans hp, hk'.trans hk, (hb' k).trans hg, by rw [hj']; exact hph⟩
    · rw [hp, hm] at hd
      cases hd
  | writer h =>
    obtain rfl | ⟨job, -, -, -, rfl⟩ | ⟨job, _, _, hj, hflip, -⟩ | ⟨job, fb, -, -, -, -, rfl⟩ | ⟨job, -, -, -, rfl⟩ :=
      flushContinue_next h
    · exact ⟨hp, hk, hg, hph⟩
    · rw [tsNotify_eq]
      refine ⟨hp, hk, hg, ?_⟩
      rintro j ⟨⟩
      rw [hp, hm]
      nofun
    · exact absurd hflip (hph job hj)
    · rw [keepView_eq]
      exact ⟨hp, hk, hg, nofun⟩
    · exact ⟨hp, hk, hg, nofun⟩

/-! DOUBLE mode: the staging buffer is written, the buffers flip, and the rectangle is copied back. -/

/-- Before TS_NOTIFY, while the flip it asks for is pending, or after it, from the buffer `k` in front. -/
def AwaitsFlip (k : Buffer) (job : FlushJob) (v : State) : Prop :=
  (job.phase = .notify ∧ v.front = k ∧ v.flipPending = false) ∨
    (job.phase = .flip ∧ v.front = k ∧ v.flipPending = true) ∨
    (job.phase = .flip ∧ v.front = otherBuffer k ∧ v.flipPending = false)

/-- How far a FLUSH of DOUBLE mode has come that found the buffer `k` in front and has written `g` to the other. -/
inductive DoublePhase (k : Buffer) (r : Rect) (g : Framebuffer) (old : Option Framebuffer) (v : State) : Prop
  /-- Nothing is copied back. -/
  | waiting (job : FlushJob) (hj : v.flush = some job) (hr : job.rect = r)
      (hnew : bufferOf v (otherBuffer k) = some g) (hold : bufferOf v k = old)
      (hwhere : AwaitsFlip k job v)
  /-- The rectangle is in both buffers. -/
  | landed (b : Framebuffer) (hb : old = some b) (hph : ∀ job, v.flush = some job → job.phase = .complete)
      (hfront : v.front = otherBuffer k) (hpending : v.flipPending = false)
      (hnew : bufferOf v (otherBuffer k) = some g) (hcopied : bufferOf v k = some (copyBack r g b))

section
variable {k : Buffer} {r : Rect} {g : Framebuffer} {old : Option Framebuffer} {v w : State}

theorem DoublePhase.congr (h : DoublePhase k r g old v) (hj' : w.flush = v.flush) (hk' : w.front = v.front)
    (hp' : w.flipPending = v.flipPending) (hb' : ∀ k, bufferOf w k = bufferOf v k) : DoublePhase k r g old w := by
  cases h with
  | waiting job hj hr hnew hold hwhere =>
    exact .waiting job (hj'.trans hj) hr ((hb' _).trans hnew) ((hb' _).trans hold)
      (by rw [AwaitsFlip, hk', hp']; exact hwhere)
  | landed b hb hph hfront hpending hnew hcopied =>
    exact .landed b hb (by rw [hj']; exact hph) (hk'.trans hfront) (hp'.trans hpending) ((hb' _).trans hnew)
      ((hb' _).trans hcopied)

theorem DoublePhase.tick (h : DoublePhase k r g old v) (ht : tsTick v = .next w) : DoublePhase k r g old w := by
  obtain ⟨-, hj', hb', ⟨hk', hp'⟩ | ⟨-, hpend, hk', hp'⟩⟩ := tsTick_buffers ht
  · exact h.congr hj' hk' hp' hb'
  · cases h with
    | landed b hb hph hfront hpending hnew hcopied => exact nomatch hpending.symm.trans hpend
    | waiting job hj hr hnew hold hwhere =>
      obtain ⟨-, -, hno⟩ | ⟨hph, hfront, -⟩ | ⟨-, -, hno⟩ := hwhere
      · exact nomatch hno.symm.trans hpend
      · exact .waiting job (hj'.trans hj) hr ((hb' _).trans hnew) ((hb' _).trans hold)
          (.inr (.inr ⟨hph, hk'.trans (congrArg otherBuffer hfront), hp'⟩))
      · exact nomatch hno.symm.trans hpend

theorem DoublePhase.writer (hm : v.params.streamMode = .double) (h : DoublePhase k r g old v)
    (hw : flushContinue v = .next w) : DoublePhase k r g old w := by
  obtain rfl | ⟨job', hj', hph', -, rfl⟩ | ⟨job', f, b, hj', hph', hp', hf, hb, rfl⟩ |
    ⟨job', fb, -, -, hm', -⟩ | ⟨job', hj', hph', -, rfl⟩ := flushContinue_next hw
  · exact h
  · cases h with
    | landed b hb hph => exact nomatch (hph job' hj').symm.trans hph'
    | waiting job hj hr hnew hold hwhere =>
      obtain rfl := Option.some.inj (hj.symm.trans hj')
      obtain ⟨-, hfront, -⟩ | ⟨hph, -⟩ | ⟨hph, -⟩ := hwhere
      · rw [tsNotify_double _ hm, hm]
        exact .waiting { job with phase := .flip } rfl hr hnew hold (.inr (.inl ⟨rfl, hfront, rfl⟩))
      · exact nomatch hph.symm.trans hph'
      · exact nomatch hph.symm.trans hph'
  · cases h with
    | landed b hb hph => exact nomatch (hph job' hj').symm.trans hph'
    | waiting job hj hr hnew hold hwhere =>
      obtain rfl := Option.some.inj (hj.symm.trans hj')
      obtain ⟨hph, -⟩ | ⟨-, -, hno⟩ | ⟨-, hfront, -⟩ := hwhere
      · exact nomatch hph.symm.trans hph'
      · exact nomatch hp'.symm.trans hno
      · have hstaging : stagingOf v = k := by rw [stagingOf_double hm, hfront, otherBuffer_otherBuffer]
        have hother : otherBuffer k ≠ k := by cases k <;> nofun
        rw [hfront, hnew] at hf
        cases hf
        rw [hstaging] at hb ⊢
        refine .landed b (hold.symm.trans hb) (by rintro j ⟨⟩; rfl) ((setBuffer_front _ _ _).trans hfront) ?_ ?_ ?_
        · rw [setBuffer_eq]
          exact hp'
        · exact (bufferOf_setBuffer_other v hother _).trans hnew
        · rw [← hr]
          exact bufferOf_setBuffer_same v k _
  · exact nomatch hm.symm.trans hm'
  · cases h with
    | landed b hb hph hfront hpending hnew hcopied => exact .landed b hb nofun hfront hpending hnew hcopied
    | waiting job hj hr hnew hold hwhere =>
      obtain rfl := Option.some.inj (hj.symm.trans hj')
      obtain ⟨hph, -⟩ | ⟨hph, -⟩ | ⟨hph, -⟩ := hwhere <;> exact nomatch hph.symm.trans hph'

theorem DoublePhase.move (hm : v.params.streamMode = .double) (h : DoublePhase k r g old v) (hw : UnaskedMove v w) :
    w.params = v.params ∧ DoublePhase k r g old w := by
  cases hw with
  | turn | ready => exact ⟨rfl, h.congr rfl rfl rfl fun k => bufferOf_update rfl rfl k⟩
  | tick ht => exact ⟨(tsTick_buffers ht).1, h.tick ht⟩
  | writer hw => exact ⟨(writerSide_flushContinue hw).quiet.params, h.writer hm hw⟩

end

/-! The whole FLUSH. -/

/-- The pixels `ps` are in the rectangle, and every other pixel of `g` is `b`'s. -/
def HoldsRect (r : Rect) (ps : List Pixel) (b g : Framebuffer) : Prop :=
  (∀ x y, rectCovers r x y → flushedPixel r ps x y = some (fbPixel g (y * 480 + x))) ∧
    (∀ x y, x < 480 → y < 480 → ¬rectCovers r x y → fbPixel g (y * 480 + x) = fbPixel b (y * 480 + x))

theorem holdsRect_write {r : Rect} (hr : rectValid r = true) {ps : List Pixel}
    (hl : ps.length = rectWidth r * rectHeight r) (b : Framebuffer) :
    HoldsRect r ps b (fbWriteAll b (rectIndices r) ps) :=
  ⟨fun _ _ hc => fbPixel_writeRect hr b hl hc, fun _ _ hx _ hc => fbPixel_writeRect_outside hr b ps hx hc⟩

/-- The copy-back brings what the front buffer holds. -/
theorem HoldsRect.copyBack {r : Rect} (hr : rectValid r = true) {ps : List Pixel} {b g : Framebuffer}
    (h : HoldsRect r ps b g) (c : Framebuffer) : HoldsRect r ps c (copyBack r g c) :=
  ⟨fun x y hc => by rw [fbPixel_copyBack hr g c hc]; exact h.1 x y hc,
    fun _ _ hx _ hc => fbPixel_writeRect_outside hr c _ hx hc⟩

/-- From `s` to `u` the rectangle has come to the front and the staging buffer. -/
structure FlushLanded (r : Rect) (ps : List Pixel) (s u : State) : Prop where
  params : u.params = s.params
  front : s.params.streamMode = .single → u.front = s.front
  holds : ∀ k, k = u.front ∨ k = stagingOf u → ∃ b g, bufferOf s k = some b ∧ bufferOf u k = some g ∧ HoldsRect r ps b g

theorem singlePhase_startFlush {s : State} (hm : s.params.streamMode = .single) (r : Rect) (ps : List Pixel)
    (fb : Framebuffer) : SinglePhase s.params s.front (fbWriteAll fb (rectIndices r) ps) (startFlush r ps fb s) := by
  rw [startFlush_eq, stagingOf_single hm, keepView_eq]
  refine ⟨?_, setBuffer_front _ _ _, bufferOf_setBuffer_same _ _ _, ?_⟩ <;> rw [setBuffer_eq]
  rintro job ⟨⟩
  nofun

theorem doublePhase_startFlush {s : State} (hm : s.params.streamMode = .double) (hp : s.flipPending = false) (r : Rect)
    (ps : List Pixel) (fb : Framebuffer) :
    DoublePhase s.front r (fbWriteAll fb (rectIndices r) ps) (bufferOf s s.front) (startFlush r ps fb s) := by
  rw [startFlush_eq, stagingOf_double hm, keepView_eq]
  have hother : s.front ≠ otherBuffer s.front := by rw [← stagingOf_double hm]; exact front_ne_stagingOf hm
  refine .waiting { rect := r, before := fb, phase := .notify } ?_ rfl (bufferOf_setBuffer_same _ _ _) ?_
    (.inl ⟨rfl, setBuffer_front _ _ _, ?_⟩)
  · rw [setBuffer_eq]
  · exact (bufferOf_setBuffer_other _ hother _).trans (bufferOf_update rfl rfl _)
  · rw [setBuffer_eq]
    exact hp

/-- A FLUSH that has completed is in the front and in the staging buffer, whatever moves but requests fell inside it. -/
theorem flushLanded {s u : State} {r : Rect} {ps : List Pixel} {fb : Framebuffer}
    (hl : ps.length = rectWidth r * rectHeight r) (hfb : bufferOf s (stagingOf s) = some fb)
    (hr : tsNotifyRefusal r s = none) (hrun : UnaskedMoves (startFlush r ps fb s) u) (hu : u.flush = none) :
    FlushLanded r ps s u := by
  obtain ⟨-, hvalid, hpend⟩ := tsNotifyRefusal_eq_none.1 hr
  have hwrite := holdsRect_write hvalid hl fb
  cases hm : s.params.streamMode with
  | single =>
    obtain ⟨hp, hk, hg, -⟩ := hrun.keeps (singlePhase_move hm) (singlePhase_startFlush hm r ps fb)
    refine ⟨hp, fun _ => hk, fun k hkk => ⟨fb, _, ?_, ?_, hwrite⟩⟩ <;>
      obtain rfl : k = s.front := by
        rw [stagingOf_single (hp ▸ hm), or_self, hk] at hkk
        exact hkk
    · rw [← stagingOf_single hm]
      exact hfb
    · exact hg
  | double =>
    have hp0 : (startFlush r ps fb s).params = s.params := (writerSide_startFlush r ps fb s).quiet.params
    obtain ⟨hp, hphase⟩ := hrun.keeps
      (P := fun v => v.params = s.params ∧
        DoublePhase s.front r (fbWriteAll fb (rectIndices r) ps) (bufferOf s s.front) v)
      (fun h ⟨hp, hd⟩ => ⟨(hd.move (hp ▸ hm) h).1.trans hp, (hd.move (hp ▸ hm) h).2⟩)
      ⟨hp0, doublePhase_startFlush hm (hpend hm) r ps fb⟩
    cases hphase with
    | waiting job hj => exact nomatch hu.symm.trans hj
    | landed b hb _ hfront _ hnew hcopied =>
      refine ⟨hp, fun hs => (nomatch hm.symm.trans hs), fun k hkk => ?_⟩
      rw [stagingOf_double (hp ▸ hm), hfront, otherBuffer_otherBuffer] at hkk
      obtain rfl | rfl := hkk
      · exact ⟨fb, _, by rw [← stagingOf_double hm]; exact hfb, hnew, hwrite⟩
      · exact ⟨b, _, hb, hcopied, hwrite.copyBack hvalid b⟩

/-- A FLUSH in flight has been started. -/
theorem exec_flush_inFlight {s t : State} {r : Rect} {ps : List Pixel} (h : exec (.flush r ps) s = .next t)
    (ht : t.flush ≠ none) : ∃ fb, ps.length = rectWidth r * rectHeight r ∧ bufferOf s (stagingOf s) = some fb ∧
      tsNotifyRefusal r s = none ∧ t = startFlush r ps fb s := by
  obtain ⟨-, hidle, ⟨-, rfl⟩ | ⟨fb, -, hl, hfb, hr, rfl⟩⟩ := execFlush_next h
  · exact absurd hidle ht
  · exact ⟨fb, hl, hfb, hr, rfl⟩

/-! A FLUSH with pixel clocks between the Writer's moves, to its end. -/

/-- From `s` to `v` the Streamer has gone on running, on the same configuration and with the buffers it needs. -/
structure StillScanning (s v : State) : Prop where
  params : v.params = s.params
  tsCfg : v.tsCfg = s.tsCfg
  ready : v.panelReady = true
  running : v.tsState = .running
  buffers : buffersExist v
  hcnt : v.hcnt < htotal v.tsCfg.timing
  vcnt : v.vcnt < vtotal v.tsCfg.timing

theorem StillScanning.tick {s v w : State} (h : StillScanning s v) (ht : tsTick v = .next w) : StillScanning s w := by
  have hb := tsTick_buffersExist h.buffers ht
  obtain ⟨d, -, rfl⟩ := tsTick_eq ht
  obtain ⟨hh, hv⟩ := nextPosition_lt h.hcnt h.vcnt
  exact ⟨h.params, h.tsCfg, h.ready, h.running, hb, hh, hv⟩

/-- Pixel clocks keep the FLUSH in flight as it is, and no flip becomes pending. -/
theorem StillScanning.after_ticks {s v : State} (h : StillScanning s v) (n : Nat) :
    ∃ w, ticks n v = .next w ∧ StillScanning s w ∧ w.flush = v.flush ∧
      (v.flipPending = false → w.flipPending = false) := by
  obtain ⟨w, hw⟩ := ticks_answers n h.running h.buffers
  refine ⟨w, hw, ticks_keeps (P := fun _ u => StillScanning s u ∧ u.flush = v.flush ∧
    (v.flipPending = false → u.flipPending = false)) hw ⟨h, rfl, id⟩ ?_⟩
  rintro j u u' - ⟨hu, hj, hp⟩ ht
  have htick := (exec_tsTick_next ht).2
  refine ⟨hu.tick htick, (tsTick_buffers htick).2.1.trans hj, fun h0 => ?_⟩
  obtain ⟨-, -, -, ⟨-, hsame⟩ | ⟨-, -, -, hfalse⟩⟩ := tsTick_buffers htick
  · exact hsame.trans (hp h0)
  · exact hfalse

/-- A position in range is one of the frame walk. -/
theorem atPosition_of_lt {g : Timing} {s : State} (hh : s.hcnt < htotal g) (hv : s.vcnt < vtotal g) :
    AtPosition g (s.hcnt + htotal g * s.vcnt) s := by
  constructor
  · rw [Nat.add_mul_mod_self_left, Nat.mod_eq_of_lt hh]
  · rw [Nat.add_mul_div_left _ _ (htotal_pos g), Nat.div_eq_of_lt hh, Nat.zero_add, Nat.mod_eq_of_lt hv]

/-- Any `n` numbers in a row hold a multiple of `n`. -/
theorem exists_multiple (k : Nat) {n : Nat} (hn : 0 < n) : ∃ i < n, (k + i) % n = 0 := by
  have hk := Nat.mod_lt k hn
  have hdiv := Nat.mod_add_div k n
  obtain hz | hz := Nat.eq_zero_or_pos (k % n)
  · exact ⟨0, hn, hz⟩
  · refine ⟨n - k % n, by omega, ?_⟩
    rw [show k + (n - k % n) = n * (k / n + 1) by rw [Nat.mul_add]; omega]
    exact Nat.mul_mod_right _ _

/-- Along the frame walk a pending flip has come, or no frame boundary has been passed. -/
theorem flip_or_noBoundary {v w : State} {k n : Nat} (hm : v.params.streamMode = .double)
    (hk : AtPosition v.tsCfg.timing k v) (hw : ticks n v = .next w) :
    w.flipPending = false ∨ ∀ i < n, (k + i) % frameTicks v ≠ 0 := by
  suffices h : (w.params = v.params ∧ w.tsCfg = v.tsCfg ∧ AtPosition v.tsCfg.timing (k + n) w) ∧
      (w.flipPending = false ∨ ∀ i < n, (k + i) % frameTicks v ≠ 0) from h.2
  refine ticks_keeps (P := fun j u => (u.params = v.params ∧ u.tsCfg = v.tsCfg ∧ AtPosition v.tsCfg.timing (k + j) u) ∧
    (u.flipPending = false ∨ ∀ i < j, (k + i) % frameTicks v ≠ 0)) hw ⟨⟨rfl, rfl, hk⟩, .inr nofun⟩ ?_
  rintro j u u' - ⟨⟨hp, hc, hpos⟩, hor⟩ ht
  have htick := (exec_tsTick_next ht).2
  have hpos' : AtPosition v.tsCfg.timing (k + j + 1) u' := hc ▸ AtPosition.tick (hc ▸ hpos) htick
  have hbound : atBoundary u = decide ((k + j) % frameTicks v = 0) := hpos.atBoundary_eq
  obtain ⟨d, -, rfl⟩ := tsTick_eq htick
  refine ⟨⟨hp, hc, hpos'⟩, ?_⟩
  show (if flips u then false else u.flipPending) = false ∨ _
  have hflips : flips u = (atBoundary u && u.flipPending) := by
    rw [flips, hp, hm]
    simp
  cases hpend : u.flipPending with
  | false => exact .inl (ite_self false)
  | true =>
    rw [hpend, Bool.and_true, hbound] at hflips
    rw [hflips]
    by_cases hz : (k + j) % frameTicks v = 0
    · exact .inl (if_pos (decide_eq_true hz))
    · refine .inr fun i hi => ?_
      obtain hlt | rfl := Nat.lt_succ_iff_lt_or_eq.1 hi
      · exact (hor.resolve_left (by rw [hpend]; nofun)) i hlt
      · exact hz

/-- The pixel clocks of one video frame bring a pending flip (R207). -/
theorem StillScanning.flip_comes {s v w : State} (h : StillScanning s v) (hm : v.params.streamMode = .double) {n : Nat}
    (hn : frameTicks v ≤ n) (hw : ticks n v = .next w) : w.flipPending = false := by
  refine (flip_or_noBoundary hm (atPosition_of_lt h.hcnt h.vcnt) hw).resolve_right fun hno => ?_
  obtain ⟨i, hi, hz⟩ := exists_multiple (v.hcnt + htotal v.tsCfg.timing * v.vcnt)
    (Nat.mul_pos (htotal_pos v.tsCfg.timing) (vtotal_pos v.tsCfg.timing))
  exact hno i (hi.trans_le hn) hz

/-- What the Writer changes leaves the Streamer running. -/
theorem StillScanning.writer {s v w : State} (h : StillScanning s v) (hw : WriterSide v w)
    (hb : ∀ k, (bufferOf v k).isSome = true → (bufferOf w k).isSome = true) : StillScanning s w := by
  obtain ⟨job, f0, f1, vs, pending, rect, res, rfl⟩ := hw
  exact ⟨h.params, h.tsCfg, h.ready, h.running, ⟨hb _ h.buffers.1, fun hm => hb _ (h.buffers.2 hm)⟩, h.hcnt, h.vcnt⟩

theorem isSome_bufferOf_setBuffer (v : State) (j : Buffer) (g : Framebuffer) (k : Buffer)
    (h : (bufferOf v k).isSome = true) : (bufferOf (setBuffer v j g) k).isSome = true := by
  by_cases hk : k = j
  · rw [hk, bufferOf_setBuffer_same]
    rfl
  · rw [bufferOf_setBuffer_other v hk]
    exact h

theorem StillScanning.after_startFlush {s v : State} (h : StillScanning s v) (r : Rect) (ps : List Pixel)
    (fb : Framebuffer) : StillScanning s (startFlush r ps fb v) := by
  refine h.writer (writerSide_startFlush r ps fb v) fun k hk => ?_
  rw [startFlush_eq, keepView_eq]
  exact isSome_bufferOf_setBuffer _ _ _ k (by rw [bufferOf_update rfl rfl]; exact hk)

theorem StillScanning.after_flushContinue {s v w : State} (h : StillScanning s v) (hw : flushContinue v = .next w) :
    StillScanning s w := by
  refine h.writer (writerSide_flushContinue hw) fun k hk => ?_
  obtain rfl | ⟨job, -, -, -, rfl⟩ | ⟨job, f, g, -, -, -, -, -, rfl⟩ | ⟨_, fb, -, -, -, -, rfl⟩ | ⟨_, -, -, -, rfl⟩ :=
    flushContinue_next hw
  · exact hk
  · rw [tsNotify_eq]
    exact hk
  · exact isSome_bufferOf_setBuffer v _ _ k hk
  · rw [keepView_eq]
    exact hk
  · exact hk

/-- The Writer's moves of a FLUSH once its pixels are written, with pixel clocks between them. -/
def writerRound (a b c : Nat) (t : State) : Answer :=
  andThen (andThen (andThen (andThen (andThen (ticks a t) flushContinue) (ticks b)) flushContinue) (ticks c))
    flushContinue

theorem flushRound_eq {a b c : Nat} {r : Rect} {ps : List Pixel} {s t : State}
    (h : exec (.flush r ps) s = .next t) : flushRound a b c r ps s = writerRound a b c t := by
  rw [flushRound, h]
  rfl

/-- The moves in a row, each of them answering. -/
theorem writerRound_eq {a b c : Nat} {t0 t1 t2 t3 t4 t5 t6 : State} (h1 : ticks a t0 = .next t1)
    (h2 : flushContinue t1 = .next t2) (h3 : ticks b t2 = .next t3) (h4 : flushContinue t3 = .next t4)
    (h5 : ticks c t4 = .next t5) (h6 : flushContinue t5 = .next t6) :
    writerRound a b c t0 = .next t6 ∧ UnaskedMoves t0 t6 := by
  refine ⟨by simp only [writerRound, andThen, h1, h2, h3, h4, h5, h6], ?_⟩
  exact (((((ticks_unasked h1).tail (.writer h2)).trans (ticks_unasked h3)).tail (.writer h4)).trans
    (ticks_unasked h5)).tail (.writer h6)

/-- From the start of a FLUSH the Writer comes to its end: in DOUBLE mode by way of the flip, which a video frame's
clocks bring. -/
theorem writerRound_completes {s t : State} {job : FlushJob} (ht : StillScanning s t) (hj : t.flush = some job)
    (hph : job.phase = .notify) (hvalid : rectValid job.rect = true) (a b c : Nat)
    (hdouble : s.params.streamMode = .double → t.flipPending = false ∧ frameTicks s ≤ b) :
    ∃ u, writerRound a b c t = .next u ∧ UnaskedMoves t u ∧ StillScanning s u ∧ u.flush = none ∧
      (s.params.streamMode = .double → u.flipPending = false) := by
  obtain ⟨t1, h1, hs1, hj1, hp1⟩ := ht.after_ticks a
  have hnone : tsNotifyRefusal job.rect t1 = none :=
    tsNotifyRefusal_eq_none.2 ⟨hs1.running, hvalid, fun hm => hp1 (hdouble (hs1.params ▸ hm)).1⟩
  have h2 := flushContinue_notify (hj1.trans hj) hph hnone
  have hs2 := hs1.after_flushContinue h2
  obtain ⟨t3, h3, hs3, hj3, hp3⟩ := hs2.after_ticks b
  cases hm : s.params.streamMode with
  | single =>
    have hm1 : t1.params.streamMode = .single := hs1.params ▸ hm
    obtain ⟨fb, hfb⟩ := Option.isSome_iff_exists.1 hs3.buffers.1
    have h4 := flushContinue_complete_single hj3 (by rw [hm1]; rfl) (hs3.params ▸ hm) hfb
    have hs4 := hs3.after_flushContinue h4
    obtain ⟨t5, h5, hs5, hj5, -⟩ := hs4.after_ticks c
    have h6 := flushContinue_idle hj5
    obtain ⟨hround, hmoves⟩ := writerRound_eq h1 h2 h3 h4 h5 h6
    exact ⟨t5, hround, hmoves, hs5, hj5, nofun⟩
  | double =>
    have hm1 : t1.params.streamMode = .double := hs1.params ▸ hm
    have hn : frameTicks (flushAt job (afterNotify t1.params.streamMode) (tsNotify job.rect t1)) ≤ b := by
      rw [frameTicks, hs2.tsCfg]
      exact (hdouble hm).2
    have hpend := hs2.flip_comes (hs2.params ▸ hm) hn h3
    obtain ⟨f, hf⟩ := Option.isSome_iff_exists.1 hs3.buffers.1
    obtain ⟨g, hg⟩ := staging_isSome hs3.buffers
    have h4 := flushContinue_copies hj3 (by rw [hm1]; rfl) hpend hf hg
    have hs4 := hs3.after_flushContinue h4
    obtain ⟨t5, h5, hs5, hj5, hp5⟩ := hs4.after_ticks c
    have h6 := flushContinue_complete_double hj5 rfl (hs5.params ▸ hm)
    obtain ⟨hround, hmoves⟩ := writerRound_eq h1 h2 h3 h4 h5 h6
    refine ⟨_, hround, hmoves, hs5.after_flushContinue h6, rfl, fun _ => hp5 ?_⟩
    rw [setBuffer_eq]
    exact hpend

/-- A FLUSH with pixel clocks between its moves comes to its end, and its rectangle is in both buffers. -/
theorem flushRound_completes {s v : State} (hv : StillScanning s v) (hidle : v.flush = none) {r : Rect}
    {ps : List Pixel} (hr : rectValid r = true) (hl : ps.length = rectWidth r * rectHeight r) (a b c : Nat)
    (hdouble : s.params.streamMode = .double → v.flipPending = false ∧ frameTicks s ≤ b) :
    ∃ u, flushRound a b c r ps v = .next u ∧ StillScanning s u ∧ u.flush = none ∧
      (s.params.streamMode = .double → u.flipPending = false) ∧ FlushLanded r ps v u := by
  obtain ⟨fb, hfb⟩ := staging_isSome hv.buffers
  have hnone : tsNotifyRefusal r v = none :=
    tsNotifyRefusal_eq_none.2 ⟨hv.running, hr, fun hm => (hdouble (hv.params ▸ hm)).1⟩
  have hstart := startFlush_eq r ps fb v
  obtain ⟨u, hround, hmoves, hsu, hju, hpu⟩ := writerRound_completes (hv.after_startFlush r ps fb)
    (job := { rect := r, before := fb, phase := .notify }) (by rw [hstart, setBuffer_eq]) rfl hr a b c
    fun hm => ⟨by rw [hstart, setBuffer_eq, keepView_eq]; exact (hdouble hm).1, (hdouble hm).2⟩
  refine ⟨u, ?_, hsu, hju, hpu, flushLanded hl hfb hnone hmoves hju⟩
  rw [flushRound_eq (exec_flush_started hv.ready hidle hl hfb hnone)]
  exact hround

/-- In DOUBLE mode the front and the staging buffer are both buffers; in SINGLE mode they are one. -/
theorem front_or_staging {t u : State} (hp : u.params = t.params)
    (hf : t.params.streamMode = .single → u.front = t.front) {k : Buffer} (hk : k = u.front ∨ k = stagingOf u) :
    k = t.front ∨ k = stagingOf t := by
  cases hm : t.params.streamMode with
  | single =>
    rw [stagingOf_single (hp ▸ hm), or_self, hf hm] at hk
    exact .inl hk
  | double =>
    rw [stagingOf_double hm]
    cases k <;> cases t.front <;> decide

/-- Two writes of disjoint rectangles, one after the other: each keeps the other's pixels. -/
theorem HoldsRect.both {r1 r2 : Rect} {p1 p2 : List Pixel} {b m g : Framebuffer} (hr1 : rectValid r1 = true)
    (hdisjoint : ∀ x y, ¬(rectCovers r1 x y ∧ rectCovers r2 x y)) (h1 : HoldsRect r1 p1 b m)
    (h2 : HoldsRect r2 p2 m g) :
    (∀ x y, rectCovers r1 x y → flushedPixel r1 p1 x y = some (fbPixel g (y * 480 + x))) ∧
      (∀ x y, rectCovers r2 x y → flushedPixel r2 p2 x y = some (fbPixel g (y * 480 + x))) ∧
      (∀ x y, x < 480 → y < 480 → ¬rectCovers r1 x y → ¬rectCovers r2 x y →
        fbPixel g (y * 480 + x) = fbPixel b (y * 480 + x)) := by
  obtain ⟨hx1, hx480, hy1, hy480⟩ := (rectValid_iff r1).1 hr1
  refine ⟨fun x y hc => ?_, h2.1, fun x y hx hy hc1 hc2 => (h2.2 x y hx hy hc2).trans (h1.2 x y hx hy hc1)⟩
  obtain ⟨-, hx, -, hy⟩ := id hc
  rw [h2.2 x y (by omega) (by omega) fun hc2 => hdisjoint x y ⟨hc, hc2⟩]
  exact h1.1 x y hc

/-- Settles O51: a completed FLUSH has landed; of two, each lands and the second keeps the first. -/
theorem disjointFlushesBothStay : Obligations.DisjointFlushesBothStay := by
  refine ⟨fun s t u r ps n h ht hrun hq hu => ?_, fun s r1 r2 p1 p2 a1 b1 c1 a2 b2 c2 hready hidle hst hbuf hh hv
    hr1 hr2 hl1 hl2 hdisjoint hdouble => ?_⟩
  · obtain ⟨fb, hl, hfb, hr, rfl⟩ := exec_flush_inFlight h ht
    exact (flushLanded hl hfb hr (steps_unasked hrun hq) hu).holds
  · have hs : StillScanning s s := ⟨rfl, rfl, hready, hst, hbuf, hh, hv⟩
    obtain ⟨t, hround1, hts, htidle, htp, hland1⟩ := flushRound_completes hs hidle hr1 hl1 a1 b1 c1
      fun hm => ⟨(hdouble hm).1, (hdouble hm).2.1⟩
    obtain ⟨u, hround2, -, huidle, -, hland2⟩ := flushRound_completes hts htidle hr2 hl2 a2 b2 c2
      fun hm => ⟨htp hm, (hdouble hm).2.2⟩
    refine ⟨t, u, hround1, htidle, hround2, huidle, fun k hk => ?_⟩
    obtain ⟨m, g, hm, hg, hold2⟩ := hland2.holds k hk
    obtain ⟨b, m', hb, hm', hold1⟩ := hland1.holds k (front_or_staging hland2.params hland2.front hk)
    obtain rfl := Option.some.inj (hm.symm.trans hm')
    exact ⟨b, g, hb, hg, hold1.both hr1 hdisjoint hold2⟩

end Sys2Proof.Machine
end
